-- ==== Sys2Proof/Word.lean ====
section
/-! DEFINITION. The word types of the HN16 model: numbered things as `Fin`, bytes as bit vectors, and the
fixed-size table every block keeps its records in (00_scope.md "Numbering"). -/

namespace Sys2Proof

/-- One byte of a frame (11, "Frame and Record Layouts"). -/
abbrev Byte := BitVec 8

/-- A strongroom number, and the number of its zone (00 "Numbering"). -/
abbrev Room := Fin 16

/-- A door number: 2s is the outer and 2s + 1 the inner door of strongroom s. -/
abbrev DoorNo := Fin 32

/-- A roster slot. -/
abbrev Slot := Fin 64

/-- A station identity, 16 × loop + slot (R78). -/
abbrev StationId := Fin 64

/-- A field loop. -/
abbrev LoopNo := Fin 4

/-- A permit position (R1). -/
abbrev PermitIx := Fin 512

/-- An alarm slot (R124). -/
abbrev AlarmSlot := Fin 24

/-- An hours window number (R152). -/
abbrev WindowNo := Fin 16

/-- The credential number read from a card (R1): three bytes. -/
abbrev Credential := BitVec 24

/-- A table of `n` records: the contents in index order. -/
structure Table (n : Nat) (α : Type) where
  toList : List α
  size_eq : toList.length = n
deriving DecidableEq, Repr

namespace Table

variable {n : Nat} {α β : Type}

/-- The record at an index. -/
def get (t : Table n α) (i : Fin n) : α :=
  t.toList[i.val]'(by rw [t.size_eq]; exact i.isLt)

/-- The table with one record replaced. -/
def set (t : Table n α) (i : Fin n) (a : α) : Table n α :=
  ⟨t.toList.set i.val a, by rw [List.length_set, t.size_eq]⟩

/-- The table with one record changed by a function. -/
def modify (t : Table n α) (i : Fin n) (f : α → α) : Table n α :=
  t.set i (f (t.get i))

/-- The table that holds the same record everywhere. -/
def replicate (n : Nat) (a : α) : Table n α :=
  ⟨List.replicate n a, List.length_replicate⟩

/-- The table computed from the index. -/
def ofFn (f : Fin n → α) : Table n α :=
  ⟨List.ofFn f, List.length_ofFn⟩

/-- Every record changed by a function. -/
def map (f : α → β) (t : Table n α) : Table n β :=
  ⟨t.toList.map f, by rw [List.length_map, t.size_eq]⟩

/-- Two tables of one size combined record by record. -/
def zipWith {γ : Type} (f : α → β → γ) (t : Table n α) (u : Table n β) : Table n γ :=
  ⟨List.zipWith f t.toList u.toList, by rw [List.length_zipWith, t.size_eq, u.size_eq, Nat.min_self]⟩

/-- The lowest index whose record passes a test. -/
def findIx? (p : α → Bool) (t : Table n α) : Option (Fin n) :=
  (t.toList.findFinIdx? p).map (Fin.cast t.size_eq)

/-- The number of records that pass a test. -/
def count (p : α → Bool) (t : Table n α) : Nat :=
  t.toList.countP p

/-- Some record passes a test. -/
def any (p : α → Bool) (t : Table n α) : Bool :=
  t.toList.any p

end Table

end Sys2Proof
end

