-- ==== Sys2Proof/Config.lean ====
section
/-! DEFINITION. What the HN16 fixes: ranges and factory defaults of the settings (R75, R121, R176), the stated
lengths of its fixed timers, and the limits of its counters. The manual leaves no value of the part open, so there
is no free value here (log 30). -/

namespace Sys2Proof.Config

/-- The length of an actuator pulse in milliseconds (R112). -/
def pulseMs : Nat := 500

/-- The proving period of a returning reference in milliseconds (R157). -/
def provingMs : Nat := 2000

/-- The repeat of a lost LONE_WORKER raise in milliseconds (R139). -/
def loneWorkerRepeatMs : Nat := 60000

/-- The last uptime second the counter reaches (R147). -/
def uptimeSecMax : Nat := 4294967295

/-- The last minute number of the wall clock (R149). -/
def minuteMax : Nat := 16777215

/-- The most identities one TAKE CHANGES removes (R170). -/
def takeLimit : Nat := 20

/-- The most payload bytes of a request frame (R161). -/
def requestPayloadMax : Nat := 48

/-- Where a saturating alarm or door count stops (R50, R124). -/
def countMax : Nat := 255

/-- Where a station's missed count stops (R78). -/
def missedMax : Nat := 8

/-- Where held_for stops counting (R110). -/
def heldForMax : Nat := 900

/-- The third consecutive wrong PIN locks a permit out (R15). -/
def pinLimit : Nat := 3

/-- The highest PIN (R1). -/
def pinMax : Nat := 9999

/-- Lowest value, highest value and factory default of a numeric setting. -/
structure Range where
  low : Nat
  high : Nat
  default : Nat
deriving DecidableEq, Repr

/-- The value lies in the range. -/
def Range.holds (r : Range) (v : Nat) : Bool :=
  decide (r.low ≤ v) && decide (v ≤ r.high)

/-- R75. -/
def travelLimit : Range := ⟨1, 12, 3⟩
/-- R75. -/
def grantTime : Range := ⟨3, 30, 8⟩
/-- R75. -/
def reboltDelay : Range := ⟨1, 10, 2⟩
/-- R75. -/
def heldOpenLimit : Range := ⟨10, 600, 60⟩
/-- R121. -/
def predischargeTime : Range := ⟨10, 120, 30⟩
/-- R121. -/
def resumeTime : Range := ⟨10, 60, 15⟩
/-- R121. -/
def holdLimit : Range := ⟨60, 900, 180⟩
/-- R121. -/
def confirmWindow : Range := ⟨2, 10, 5⟩
/-- R21, R121. -/
def occupancyLimit : Range := ⟨1, 12, 4⟩
/-- R121, in minutes. -/
def checkInPeriod : Range := ⟨5, 60, 20⟩
/-- R83. -/
def missLimit : Range := ⟨2, 8, 3⟩
/-- R24. -/
def rosterHighLevel : Range := ⟨1, 64, 56⟩
/-- R35. -/
def pairWindow : Range := ⟨10, 60, 30⟩
/-- Grace 1 and grace 2 (R176, section 6.6). -/
def grace : Range := ⟨30, 300, 60⟩

end Sys2Proof.Config
end

