-- ==== Sys2Proof/Syntax.lean ====
section
/-! DEFINITION. The commands of the HN16: one constructor of `Instr` for each row of the table of operations and
events, with the operands that the event carries. The table gives the rows no bits; a host request carries the index
and the payload bytes of its frame (R168, 11 "Host link frames"), an event carries what tells it from another of its
kind. -/

namespace Sys2Proof

/-- What ends a hold (R177): the supply has stood above the rise threshold, or the reset input is released. -/
inductive PowerOnCause where
  | supplyRise
  | resetRelease
deriving DecidableEq, Repr

/-- The kind of reader a card is presented at (R88). -/
inductive Face where
  | entry
  | exit
  | checkIn
deriving DecidableEq, Repr

/-- A card presentation as an answer carries it (R88). -/
structure Presentation where
  face : Face
  credential : Credential
  pin : Option (BitVec 16)
  mark : Bool
deriving DecidableEq, Repr

/-- What a complete answer of a station carries: its input code and its presentation field (R82). -/
structure StationAnswer where
  code : Byte
  presentation : Option Presentation
deriving DecidableEq, Repr

/-- Why a slot time gave no good answer (R82). All are taken alike (R83). -/
inductive MissCause where
  | absent
  | late
  | badCheck
  | wrongEcho
  | unlistedCode
deriving DecidableEq, Repr

/-- The payload of WRITE PERMIT: bytes 0 to 16 of the permit record (11). -/
structure PermitFields where
  credential : Credential
  holder : BitVec 16
  rooms : BitVec 16
  cls : Byte
  hours : Byte
  state : Byte
  flags : Byte
  pin : BitVec 16
  expiry : BitVec 24
  uses : Byte
deriving DecidableEq, Repr

/-- The payload of AMEND PERMIT (R10, 11). -/
structure AmendFields where
  flagSet : Byte
  flagClear : Byte
  roomSet : BitVec 16
  roomClear : BitVec 16
  usesSel : Byte
  uses : Byte
  expirySel : Byte
  expiry : BitVec 24
  pinSel : Byte
  pin : BitVec 16
deriving DecidableEq, Repr

/-- The payload of WRITE WINDOW (R153, 11). -/
structure WindowFields where
  form : Byte
  weekdays : Byte
  start : BitVec 16
  stop : BitVec 16
deriving DecidableEq, Repr

/-- The commands, in the order of the table of operations and events. -/
inductive Instr where
  | powerOn (cause : PowerOnCause)
  | resetInput
  | imageLoad
  | supplyLow
  | supplyRestart
  | keyValidated (on : Bool)
  | uptimeSecond
  | holdLimitReached (zone : Room)
  | minuteBoundary
  | referenceEdge
  | referenceGap
  | provingPeriodEnd
  | commitCompletion (verified : Bool)
  | windowStart
  | windowEnd
  | windowDiscard (first : Byte)
  | badFrame (frame : List Byte)
  | readStatus
  | takeChanges
  | setAttention (setMask clearMask : Byte)
  | restart
  | findPermit (credential : Credential)
  | readPermit (index : BitVec 16)
  | writePermit (index : BitVec 16) (fields : PermitFields)
  | amendPermit (index : BitVec 16) (fields : AmendFields)
  | retirePermit (index : BitVec 16)
  | readRoster (index : BitVec 16)
  | readOccupant (index : BitVec 16)
  | retireOccupant (index : BitVec 16)
  | confirmVacant (index : BitVec 16)
  | grantEntry (index : BitVec 16) (permit : BitVec 16)
  | releaseExit (index : BitVec 16)
  | readDoor (index : BitVec 16)
  | setDoorMode (index : BitVec 16) (mode : Byte)
  | resetDoor (index : BitVec 16)
  | clearCounts (index : BitVec 16)
  | readZone (index : BitVec 16)
  | isolateZone (index : BitVec 16)
  | restoreZone (index : BitVec 16)
  | resetZone (index : BitVec 16)
  | readAlarm (index : BitVec 16)
  | acknowledgeAlarm (index : BitVec 16)
  | clearAlarm (index : BitVec 16)
  | clearLostCount
  | readClock
  | setClock (minute : BitVec 24) (second : Byte)
  | readWindow (index : BitVec 16)
  | writeWindow (index : BitVec 16) (fields : WindowFields)
  | readStation (index : BitVec 16)
  | readSetting (index : BitVec 16)
  | writeSetting (index : BitVec 16) (value : BitVec 32)
  | commitSettings
  | poll (loop : LoopNo)
  | goodAnswer (station : StationId) (answer : StationAnswer)
  | missedAnswer (station : StationId) (cause : MissCause)
  | presentationDecided (loop : LoopNo)
  | pairWindowEnd (room : Room)
  | travelLimit (door : DoorNo)
  | lapse (door : DoorNo)
  | heldOpenLimit (door : DoorNo)
  | reboltDelayEnd (door : DoorNo)
  | countdownEnd (zone : Room)
  | pulseEnd (zone : Room)
  | confirmEnd (zone : Room)
  | watchDeadline (slot : Slot)
  | loneWorkerRepeat (slot : Slot)
  | answerSent
  | supplyBelowRetention
deriving DecidableEq, Repr

end Sys2Proof
end

