-- ==== Sys2Proof/Decode.lean ====
section
/-! DEFINITION. `decodeTableWord` (no row of the table has bits) and the host link's request frames: reading the bytes
of one window into a request, a rejected frame or a discarded window (R161, R162, R168), and writing a request's frame
(11 "Host link frames"). -/

namespace Sys2Proof

/-- The command that a word spells by the table's bits. No row of the HN16's table gives bits. -/
def decodeTableWord (_nbits _w : Nat) : Option Instr :=
  none

/-- High byte first (11). -/
def be16 (a b : Byte) : BitVec 16 := a ++ b

/-- High byte first (11). -/
def be24 (a b c : Byte) : BitVec 24 := a ++ b ++ c

/-- High byte first (11). -/
def be32 (a b c d : Byte) : BitVec 32 := a ++ b ++ c ++ d

/-- The two bytes of a number, high byte first. -/
def bytes16 (v : BitVec 16) : List Byte := [v.extractLsb' 8 8, v.extractLsb' 0 8]

/-- The three bytes of a number, high byte first. -/
def bytes24 (v : BitVec 24) : List Byte := [v.extractLsb' 16 8, v.extractLsb' 8 8, v.extractLsb' 0 8]

/-- The four bytes of a number, high byte first. -/
def bytes32 (v : BitVec 32) : List Byte :=
  [v.extractLsb' 24 8, v.extractLsb' 16 8, v.extractLsb' 8 8, v.extractLsb' 0 8]

/-- The sum of the bytes of a frame modulo 256 (R161). -/
def byteSum (bs : List Byte) : Byte :=
  bs.foldr (· + ·) 0

/-- The byte that brings the sum of a frame to 0 modulo 256 (R161). -/
def checkByte (bs : List Byte) : Byte :=
  0 - byteSum bs

/-- The frame with its check byte. -/
def withCheck (bs : List Byte) : List Byte :=
  bs ++ [checkByte bs]

/-- The lead byte of the long form (R161). -/
def leadLong : Byte := 0xC3

/-- The lead byte of the short form (R161). -/
def leadShort : Byte := 0xC4

/-- The payload count that the table of R168 gives a code; none for a code that is not in the table. -/
def payloadCount (code : Byte) : Option Nat :=
  match code.toNat with
  | 0x01 | 0x02 | 0x04 | 0x11 | 0x14 | 0x20 | 0x21 | 0x22 | 0x23 | 0x31 | 0x32 | 0x34 | 0x35
  | 0x40 | 0x41 | 0x42 | 0x43 | 0x50 | 0x51 | 0x52 | 0x53 | 0x60 | 0x62 | 0x70 | 0x78 | 0x7A => some 0
  | 0x33 => some 1
  | 0x03 | 0x30 => some 2
  | 0x10 => some 3
  | 0x61 | 0x79 => some 4
  | 0x63 => some 6
  | 0x13 => some 15
  | 0x12 => some 17
  | _ => none

/-- The request of a code with no payload (R168). -/
def plainRequest (code : Byte) (index : BitVec 16) : Option Instr :=
  match code.toNat with
  | 0x01 => some .readStatus
  | 0x02 => some .takeChanges
  | 0x04 => some .restart
  | 0x11 => some (.readPermit index)
  | 0x14 => some (.retirePermit index)
  | 0x20 => some (.readRoster index)
  | 0x21 => some (.readOccupant index)
  | 0x22 => some (.retireOccupant index)
  | 0x23 => some (.confirmVacant index)
  | 0x31 => some (.releaseExit index)
  | 0x32 => some (.readDoor index)
  | 0x34 => some (.resetDoor index)
  | 0x35 => some (.clearCounts index)
  | 0x40 => some (.readZone index)
  | 0x41 => some (.isolateZone index)
  | 0x42 => some (.restoreZone index)
  | 0x43 => some (.resetZone index)
  | 0x50 => some (.readAlarm index)
  | 0x51 => some (.acknowledgeAlarm index)
  | 0x52 => some (.clearAlarm index)
  | 0x53 => some .clearLostCount
  | 0x60 => some .readClock
  | 0x62 => some (.readWindow index)
  | 0x70 => some (.readStation index)
  | 0x78 => some (.readSetting index)
  | 0x7A => some .commitSettings
  | _ => none

/-- The permit record of WRITE PERMIT (11). -/
def readPermitFields (payload : List Byte) : Option PermitFields :=
  match payload with
  | [c0, c1, c2, h0, h1, r0, r1, cls, hrs, st, fl, p0, p1, e0, e1, e2, u] =>
    some ⟨be24 c0 c1 c2, be16 h0 h1, be16 r0 r1, cls, hrs, st, fl, be16 p0 p1, be24 e0 e1 e2, u⟩
  | _ => none

/-- The payload of AMEND PERMIT (11). -/
def readAmendFields (payload : List Byte) : Option AmendFields :=
  match payload with
  | [fs, fc, s0, s1, k0, k1, us, u, es, e0, e1, e2, ps, p0, p1] =>
    some ⟨fs, fc, be16 s0 s1, be16 k0 k1, us, u, es, be24 e0 e1 e2, ps, be16 p0 p1⟩
  | _ => none

/-- The request of a code with a payload (R168, 11). -/
def payloadRequest (code : Byte) (index : BitVec 16) (payload : List Byte) : Option Instr :=
  match code.toNat, payload with
  | 0x03, [a, b] => some (.setAttention a b)
  | 0x10, [a, b, c] => some (.findPermit (be24 a b c))
  | 0x12, p => (readPermitFields p).map (.writePermit index)
  | 0x13, p => (readAmendFields p).map (.amendPermit index)
  | 0x30, [a, b] => some (.grantEntry index (be16 a b))
  | 0x33, [m] => some (.setDoorMode index m)
  | 0x61, [a, b, c, sec] => some (.setClock (be24 a b c) sec)
  | 0x63, [f, d, s0, s1, e0, e1] => some (.writeWindow index ⟨f, d, be16 s0 s1, be16 e0 e1⟩)
  | 0x79, [a, b, c, d] => some (.writeSetting index (be32 a b c d))
  | _, _ => none

/-- The request that a code, an index and a payload of the right count make. -/
def requestOf (code : Byte) (index : BitVec 16) (payload : List Byte) : Option Instr :=
  match payload with
  | [] => plainRequest code index
  | _ => payloadRequest code index payload

/-- What the framer makes of the bytes of one window (R160 to R162). -/
inductive FrameReading where
  /-- The first byte is no lead byte: the window carries no request. -/
  | discard
  /-- The frame is rejected. -/
  | bad
  /-- The bytes end before the frame does. -/
  | incomplete
  /-- The frame names a request. -/
  | request (i : Instr)
deriving DecidableEq, Repr

/-- A frame whose bytes are all there: the check byte, the code and the count decide (R162). -/
def judgeFrame (frame : List Byte) (code : Byte) (index : BitVec 16) (payload : List Byte) : FrameReading :=
  if byteSum frame ≠ 0 then .bad
  else if payloadCount code ≠ some payload.length then .bad
  else match requestOf code index payload with
    | some i => .request i
    | none => .bad

/-- The bytes after the lead byte of a short frame: it is always four bytes long (R161). -/
def readShort (rest : List Byte) : FrameReading :=
  match rest with
  | code :: index :: check :: _ => judgeFrame [leadShort, code, index, check] code (index.setWidth 16) []
  | _ => .incomplete

/-- The bytes after the lead byte of a long frame. A count above 48 is found at the count byte (R162). -/
def readLong (rest : List Byte) : FrameReading :=
  match rest with
  | code :: i1 :: i0 :: count :: more =>
    if Config.requestPayloadMax < count.toNat then .bad
    else if more.length < count.toNat + 1 then .incomplete
    else judgeFrame (leadLong :: code :: i1 :: i0 :: count :: more.take (count.toNat + 1)) code (be16 i1 i0)
      (more.take count.toNat)
  | _ => .incomplete

/-- The reading of a window's bytes. Bytes after the frame's end are not read (R160). -/
def readFrame (bytes : List Byte) : FrameReading :=
  match bytes with
  | [] => .incomplete
  | lead :: rest =>
    if lead = leadLong then readLong rest
    else if lead = leadShort then readShort rest
    else .discard

/-- The payload bytes of a permit record (11). -/
def PermitFields.toBytes (p : PermitFields) : List Byte :=
  bytes24 p.credential ++ bytes16 p.holder ++ bytes16 p.rooms ++ [p.cls, p.hours, p.state, p.flags]
    ++ bytes16 p.pin ++ bytes24 p.expiry ++ [p.uses]

/-- The payload bytes of AMEND PERMIT (11). -/
def AmendFields.toBytes (a : AmendFields) : List Byte :=
  [a.flagSet, a.flagClear] ++ bytes16 a.roomSet ++ bytes16 a.roomClear ++ [a.usesSel, a.uses, a.expirySel]
    ++ bytes24 a.expiry ++ [a.pinSel] ++ bytes16 a.pin

/-- The code, index and payload of a request (R168); none for an event that is no request. An unused index is
sent as 0. -/
def Instr.request? : Instr → Option (Byte × BitVec 16 × List Byte)
  | .readStatus => some (0x01, 0, [])
  | .takeChanges => some (0x02, 0, [])
  | .setAttention a b => some (0x03, 0, [a, b])
  | .restart => some (0x04, 0, [])
  | .findPermit c => some (0x10, 0, bytes24 c)
  | .readPermit i => some (0x11, i, [])
  | .writePermit i p => some (0x12, i, p.toBytes)
  | .amendPermit i a => some (0x13, i, a.toBytes)
  | .retirePermit i => some (0x14, i, [])
  | .readRoster i => some (0x20, i, [])
  | .readOccupant i => some (0x21, i, [])
  | .retireOccupant i => some (0x22, i, [])
  | .confirmVacant i => some (0x23, i, [])
  | .grantEntry i p => some (0x30, i, bytes16 p)
  | .releaseExit i => some (0x31, i, [])
  | .readDoor i => some (0x32, i, [])
  | .setDoorMode i m => some (0x33, i, [m])
  | .resetDoor i => some (0x34, i, [])
  | .clearCounts i => some (0x35, i, [])
  | .readZone i => some (0x40, i, [])
  | .isolateZone i => some (0x41, i, [])
  | .restoreZone i => some (0x42, i, [])
  | .resetZone i => some (0x43, i, [])
  | .readAlarm i => some (0x50, i, [])
  | .acknowledgeAlarm i => some (0x51, i, [])
  | .clearAlarm i => some (0x52, i, [])
  | .clearLostCount => some (0x53, 0, [])
  | .readClock => some (0x60, 0, [])
  | .setClock m s => some (0x61, 0, bytes24 m ++ [s])
  | .readWindow i => some (0x62, i, [])
  | .writeWindow i w => some (0x63, i, [w.form, w.weekdays] ++ bytes16 w.start ++ bytes16 w.stop)
  | .readStation i => some (0x70, i, [])
  | .readSetting i => some (0x78, i, [])
  | .writeSetting i v => some (0x79, i, bytes32 v)
  | .commitSettings => some (0x7A, 0, [])
  | .powerOn _ | .resetInput | .imageLoad | .supplyLow | .supplyRestart | .keyValidated _ | .uptimeSecond
  | .holdLimitReached _ | .minuteBoundary | .referenceEdge | .referenceGap | .provingPeriodEnd
  | .commitCompletion _ | .windowStart | .windowEnd | .windowDiscard _ | .badFrame _ | .poll _
  | .goodAnswer _ _ | .missedAnswer _ _ | .presentationDecided _ | .pairWindowEnd _ | .travelLimit _ | .lapse _
  | .heldOpenLimit _ | .reboltDelayEnd _ | .countdownEnd _ | .pulseEnd _ | .confirmEnd _ | .watchDeadline _
  | .loneWorkerRepeat _ | .answerSent | .supplyBelowRetention => none

/-- The long-form frame of a code, an index and a payload (R161). -/
def longFrame (code : Byte) (index : BitVec 16) (payload : List Byte) : List Byte :=
  withCheck ([leadLong, code] ++ bytes16 index ++ [BitVec.ofNat 8 payload.length] ++ payload)

/-- The short-form frame of a code and an index of one byte (R161). -/
def shortFrame (code index : Byte) : List Byte :=
  withCheck [leadShort, code, index]

/-- The long-form frame of a request; none for an event that is no request. -/
def Instr.frame? (i : Instr) : Option (List Byte) :=
  i.request?.map fun r => longFrame r.1 r.2.1 r.2.2

end Sys2Proof
end

