-- ==== Sys2Proof/Machine/State.lean ====
section
/-! DEFINITION. The state of the HN16 as plain data: every record of the eleven blocks, the queue of waiting commands,
and the state right after reset. Deadlines are instants of uptime in milliseconds (R148); what READ requests report is
computed from them. -/

namespace Sys2Proof.Machine

/-! ### Reasons and results (11, "Encodings") -/

/-- The one code space of REFUSED causes, DENY reasons, last denials and isolation refusals (11), in code order
from 01h. -/
inductive Reason where
  | inUse | duplicate | wrongState | notNormal | detectorActive | stationLost | interlock | zoneState | timeUnset
  | unknown | suspended | expired | usedUp | notPermitted | hours | pinWrong | pinLocked | zoneAlarm
  | doorMode | alreadyInside | roomFull | rosterFull | doorBusy | escortNeeded | pairNeeded | notInVestibule
  | notOnRoster
deriving DecidableEq, Repr

/-- The result of a request (R166). -/
inductive Result where
  | ok | notFound | refused | busy | full | privilege | badFrame | badValue
deriving DecidableEq, Repr

/-- The answer to a request: its result and its payload bytes (R164). -/
structure Answer where
  result : Result
  payload : List Byte
deriving DecidableEq, Repr

/-! ### Permit table (R1) -/

inductive PermitClass where
  | staff | guard | visitor
deriving DecidableEq, Repr

inductive PermitHours where
  | dayOnly | anyHours
deriving DecidableEq, Repr

inductive PermitState where
  | active | suspended | retiring
deriving DecidableEq, Repr

/-- A present permit (R1). -/
structure Permit where
  credential : Credential
  holder : BitVec 16
  rooms : BitVec 16
  cls : PermitClass
  hours : PermitHours
  pin : Option Nat
  state : PermitState
  expiry : Option Nat
  uses : Option Nat
  watchAlways : Bool
  pinFailures : Nat
  occupant : Option Slot
deriving DecidableEq, Repr

/-! ### Roster (R20) and pending pairs (R35) -/

inductive Phase where
  | admitted | vestibule | inside | leaving
deriving DecidableEq, Repr

inductive WatchStage where
  | zero | one | two | three
deriving DecidableEq, Repr

/-- A lone-worker watch (R137 to R139). `setAt` is the uptime at which the deadline was last set, which the supply
restart needs (R145). -/
structure Watch where
  stage : WatchStage
  deadline : Option Nat
  setAt : Nat
deriving DecidableEq, Repr

/-- An occupant record (R20). -/
structure Occupant where
  room : Room
  permit : PermitIx
  phase : Phase
  admittedAt : Nat
  duress : Bool
  partner : Option Slot
  watch : Option Watch
deriving DecidableEq, Repr

/-- The first holder of a pair, held at an outer door (R35). -/
structure PendingPair where
  permit : PermitIx
  duress : Bool
  deadline : Nat
deriving DecidableEq, Repr

/-! ### Doors (R50, R51) -/

inductive FaultCause where
  | boltJam | stationLost | sensorConflict
deriving DecidableEq, Repr

/-- The fault cause is present in FAULT only, so FAULT carries it (R50). -/
inductive DoorState where
  | secured | unbolting | released | opened | closedWait | bolting
  | fault (cause : FaultCause)
deriving DecidableEq, Repr

inductive BaseMode where
  | normal | lockdown | holdOpen | outOfService
deriving DecidableEq, Repr

inductive DoorMode where
  | normal | lockdown | holdOpen | outOfService | egress | sealed
deriving DecidableEq, Repr

inductive GrantKind where
  | entry | innerEntry | exit | anonymousExit | remoteEntry
deriving DecidableEq, Repr

structure Grant where
  kind : GrantKind
  slots : List Slot
  lapse : Option Nat
deriving DecidableEq, Repr

/-- A pending exit. Its kind is EXIT if it names a slot and ANONYMOUS_EXIT if it names none (R63). -/
structure PendingExit where
  slots : List Slot
deriving DecidableEq, Repr

inductive Contact where
  | closed | opened
deriving DecidableEq, Repr

inductive BoltReading where
  | thrown | withdrawn | between | conflict
deriving DecidableEq, Repr

inductive BoltDrive where
  | throw | withdraw
deriving DecidableEq, Repr

inductive Indicator where
  | red | green | amber
deriving DecidableEq, Repr

structure Denial where
  reason : Reason
  credential : Credential
deriving DecidableEq, Repr

/-- A door record (R50), with the contact and bolt reading the door controller last took (R51, R73, R106). -/
structure Door where
  state : DoorState
  baseMode : BaseMode
  effMode : DoorMode
  grant : Option Grant
  pendingExit : Option PendingExit
  stepDeadline : Option Nat
  passages : BitVec 16
  forced : Nat
  held : Nat
  lastDenial : Option Denial
  contact : Option Contact
  bolt : Option BoltReading
deriving DecidableEq, Repr

/-! ### Stations and loops (R78 to R81) -/

inductive Role where
  | unused
  | door (d : DoorNo)
  | zone (z : Room)
  | muster
deriving DecidableEq, Repr

inductive Presence where
  | unseen | present | lost
deriving DecidableEq, Repr

/-- The decision on a presentation, as the result field returns it (R27). -/
inductive Decision where
  | grant
  | deny (r : Reason)
  | wait
deriving DecidableEq, Repr

/-- The presentation handshake of a station (R89). The admission unit's undecided presentation of a loop is the one
held in the loop's HANDED step. -/
inductive Handshake where
  | idle
  | waiting (p : Presentation)
  | handed (p : Presentation)
  | answering (d : Decision) (mark : Bool)
deriving DecidableEq, Repr

/-- A station record (R78), less the role and last flag, which the settings working copy holds (R79). -/
structure Station where
  presence : Presence
  missed : Nat
  inputs : Option Byte
  candidate : Option Byte
  handshake : Handshake
deriving DecidableEq, Repr

/-- What the handshake must remember beside its step: one answer without a presentation seen (R91), and a poll with
the ACK sent (R90). -/
structure HandshakeNotes where
  blankSeen : Bool
  ackSent : Bool
deriving DecidableEq, Repr

/-- The handshake field of a poll, with the result that goes with ACK (R81). -/
inductive PollHandshake where
  | none
  | hold
  | ack (mark : Bool) (d : Decision)
deriving DecidableEq, Repr

/-- A poll (R81). -/
structure Poll where
  slot : Fin 16
  output : Byte
  handshake : PollHandshake
deriving DecidableEq, Repr

/-- A loop: the slot it polls next (R80) and the poll it last sent. -/
structure Loop where
  nextSlot : Fin 16
  lastPoll : Option Poll
deriving DecidableEq, Repr

/-! ### Zones (R97) -/

inductive ZoneState where
  | normal | isolated | firstAlarm | predischarge | held | releasing | discharged | releaseFailed
deriving DecidableEq, Repr

inductive Detector where
  | normal | alarm | fault
deriving DecidableEq, Repr

inductive Attempt where
  | none | main | reserve
deriving DecidableEq, Repr

inductive Sounder where
  | off | chime | predischarge | released
deriving DecidableEq, Repr

/-- The set of hold reasons (R106). -/
structure HoldReasons where
  abort : Bool
  occupied : Bool
  uncertain : Bool
  doorOpen : Bool
  stationLost : Bool
deriving DecidableEq, Repr

/-- A zone record (R97). `countsDue`: the uptime seconds whose counts of held_for wait for HOLD_LIMIT_REACHED, from the one
that brings held_for to the hold limit on (R110, log 5). -/
structure Zone where
  state : ZoneState
  holdReasons : HoldReasons
  countdown : Option Nat
  heldFor : Nat
  trappedRaised : Bool
  attempt : Attempt
  pulseEnd : Option Nat
  confirmEnd : Option Nat
  detectorA : Detector
  detectorB : Detector
  abort : Bool
  manualRelease : Bool
  pressure : Bool
  isolationRefusal : Option Reason
  mainFire : Bool
  reserveFire : Bool
  countsDue : Nat
deriving DecidableEq, Repr

/-! ### Alarms (R124) -/

inductive AlarmKind where
  | duress | panic | trapped | suppressionFailed | loneWorker | forcedDoor | unescorted | doorHeld | stationLost
deriving DecidableEq, Repr

/-- The identity key of an alarm (R124). -/
structure AlarmKey where
  kind : AlarmKind
  room : Option Room
  door : Option DoorNo
  occupant : Option Slot
  station : Option StationId
deriving DecidableEq, Repr

/-- A raise as a block hands it: the key and the permit (R126). -/
structure AlarmRaise where
  key : AlarmKey
  permit : Option PermitIx
deriving DecidableEq, Repr

/-- An alarm record (R124). `cause` is absent for DURESS. -/
structure Alarm where
  key : AlarmKey
  permit : Option PermitIx
  acknowledged : Bool
  cause : Option Bool
  firstRaised : Nat
  repeats : Nat
deriving DecidableEq, Repr

/-! ### Clock (R147 to R157) -/

/-- The valid wall clock (R149): its minute number, and the seconds since that minute began. From 60 seconds on its minute
boundary is due (log 4). -/
structure WallClock where
  minute : Nat
  seconds : Nat
deriving DecidableEq, Repr

inductive HoursDecision where
  | day | afterHours
deriving DecidableEq, Repr

inductive RefState where
  | backup | returning | reference
deriving DecidableEq, Repr

structure Reference where
  state : RefState
  entered : Nat
  provingEnd : Option Nat
deriving DecidableEq, Repr

/-- An hours window (R152): weekday set (bit n is weekday n), start and end minute of the day. -/
structure HoursWindow where
  weekdays : BitVec 7
  start : Nat
  stop : Nat
deriving DecidableEq, Repr

/-! ### Settings (R176) -/

structure StationEntry where
  role : Role
  last : Bool
deriving DecidableEq, Repr

inductive FailMode where
  | failSecure | failRelease
deriving DecidableEq, Repr

/-- The settings of a door (R75), times in seconds. -/
structure DoorSettings where
  failMode : FailMode
  travelLimit : Nat
  grantTime : Nat
  reboltDelay : Nat
  heldOpenLimit : Nat
deriving DecidableEq, Repr

/-- The settings of a zone (R121), times in seconds, the check-in period in minutes. -/
structure ZoneSettings where
  predischarge : Nat
  resume : Nat
  holdLimit : Nat
  confirmWindow : Nat
  occupancyLimit : Nat
  twoPerson : Bool
  checkIn : Nat
deriving DecidableEq, Repr

/-- The working copy, and the contents of an image (R176). -/
structure Settings where
  stations : Table 64 StationEntry
  doors : Table 32 DoorSettings
  zones : Table 16 ZoneSettings
  missLimit : Nat
  rosterHigh : Nat
  pairWindow : Nat
  grace1 : Nat
  grace2 : Nat
  windows : Table 16 (Option HoursWindow)
deriving DecidableEq, Repr

/-! ### Host link (R160, R169) -/

inductive WindowStep where
  | idle | receiving | answering | done | discarding
deriving DecidableEq, Repr

/-- The framer: its window step and the answer it is sending (R160, R164). -/
structure Framer where
  step : WindowStep
  answer : Option Answer
deriving DecidableEq, Repr

/-- A record identity of the change set (R169). -/
inductive Identity where
  | zone (z : Room)
  | alarm (a : AlarmSlot)
  | door (d : DoorNo)
  | roster (o : Slot)
  | station (t : StationId)
  | permit (p : PermitIx)
  | clock
  | status
deriving DecidableEq, Repr

/-- The change set: each of the 714 identities is in it or not (R169). -/
structure ChangeSet where
  zones : Table 16 Bool
  alarms : Table 24 Bool
  doors : Table 32 Bool
  roster : Table 64 Bool
  stations : Table 64 Bool
  permits : Table 512 Bool
  clock : Bool
  status : Bool
deriving DecidableEq, Repr

/-! ### Supply and power (R177, R182) -/

/-- Held (by the reset input, by the supply), loading the image, or running (R177). -/
inductive Power where
  | held (byReset bySupply : Bool)
  | loading
  | running
deriving DecidableEq, Repr

/-- The direct output lines. -/
structure Lines where
  guard : Bool
  suppressionActive : Bool
  attn : Bool
deriving DecidableEq, Repr

/-- What the LOW period must remember: its entry, the line values held (R183), and which strongrooms were unescorted
at entry (R145). -/
structure LowPeriod where
  since : Nat
  lines : Lines
  unescorted : Table 16 Bool
deriving DecidableEq, Repr

inductive Supply where
  | normal
  | low (p : LowPeriod)
deriving DecidableEq, Repr

/-! ### The state -/

/-- Everything the HN16 keeps, and the queue of commands that wait, first in first out. -/
structure State where
  permits : Table 512 (Option Permit)
  occupants : Table 64 (Option Occupant)
  lists : Table 16 (List Slot)
  uncertain : Table 16 Bool
  pairs : Table 16 (Option PendingPair)
  doors : Table 32 Door
  stations : Table 64 Station
  notes : Table 64 HandshakeNotes
  loops : Table 4 Loop
  zones : Table 16 Zone
  alarms : Table 24 (Option Alarm)
  overflow : Bool
  lostCount : Nat
  handedRaises : List AlarmRaise
  uptimeMs : Nat
  wall : Option WallClock
  decision : HoursDecision
  reference : Reference
  framer : Framer
  changes : ChangeSet
  attentionMask : BitVec 8
  supplyRestarted : Bool
  settingsDefaulted : Bool
  commitFailed : Bool
  settings : Settings
  image : Option Settings
  commit : Option Settings
  power : Power
  supply : Supply
  keyOn : Bool
  pending : List Instr
deriving DecidableEq, Repr

/-- The reasons a step could stop with a fault. The manual names none: every command has an effect, or finds nothing to
act on and changes nothing (log 29). -/
inductive Fault where
deriving DecidableEq, Repr

/-- The reasons a step could be refused. -/
inductive Refusal where
  /-- A command whose meaning has not been written. No arm of `exec` answers it. Safe: the machine stops where the
  part goes on. -/
  | notModelled (mnemonic : String)
deriving DecidableEq, Repr

/-! ### Values after reset -/

/-- The role of the default station table (R96): loop L, slot S serves strongroom 4L + S/4. -/
def defaultRole (t : StationId) : Role :=
  let room : Nat := 4 * (t.val / 16) + (t.val % 16) / 4
  match t.val % 4 with
  | 0 => .door (Fin.ofNat 32 (2 * room))
  | 1 => .door (Fin.ofNat 32 (2 * room + 1))
  | 2 => .zone (Fin.ofNat 16 room)
  | _ => .muster

/-- The factory defaults (R176). -/
def Settings.factory : Settings where
  stations := Table.ofFn fun t => { role := defaultRole t, last := false }
  doors := Table.replicate 32
    { failMode := .failSecure, travelLimit := Config.travelLimit.default, grantTime := Config.grantTime.default,
      reboltDelay := Config.reboltDelay.default, heldOpenLimit := Config.heldOpenLimit.default }
  zones := Table.replicate 16
    { predischarge := Config.predischargeTime.default, resume := Config.resumeTime.default,
      holdLimit := Config.holdLimit.default, confirmWindow := Config.confirmWindow.default,
      occupancyLimit := Config.occupancyLimit.default, twoPerson := true, checkIn := Config.checkInPeriod.default }
  missLimit := Config.missLimit.default
  rosterHigh := Config.rosterHighLevel.default
  pairWindow := Config.pairWindow.default
  grace1 := Config.grace.default
  grace2 := Config.grace.default
  windows := Table.replicate 16 none

/-- The empty set of hold reasons. -/
def HoldReasons.empty : HoldReasons := ⟨false, false, false, false, false⟩

/-- A door record at power-on (R77). -/
def Door.atPowerOn : Door where
  state := .fault .stationLost
  baseMode := .normal
  effMode := .normal
  grant := none
  pendingExit := none
  stepDeadline := none
  passages := 0
  forced := 0
  held := 0
  lastDenial := none
  contact := none
  bolt := none

/-- A station record at power-on (R96). -/
def Station.atPowerOn : Station where
  presence := .unseen
  missed := 0
  inputs := none
  candidate := none
  handshake := .idle

/-- A zone record at power-on (R123). -/
def Zone.atPowerOn : Zone where
  state := .normal
  holdReasons := .empty
  countdown := none
  heldFor := 0
  trappedRaised := false
  attempt := .none
  pulseEnd := none
  confirmEnd := none
  detectorA := .normal
  detectorB := .normal
  abort := false
  manualRelease := false
  pressure := false
  isolationRefusal := none
  mainFire := false
  reserveFire := false
  countsDue := 0

/-- The change set that holds all 714 identities (R175). -/
def ChangeSet.full : ChangeSet where
  zones := Table.replicate 16 true
  alarms := Table.replicate 24 true
  doors := Table.replicate 32 true
  roster := Table.replicate 64 true
  stations := Table.replicate 64 true
  permits := Table.replicate 512 true
  clock := true
  status := true

/-- The default attention mask: ZONE (bit 0) and ALARM (bit 1) (R171). -/
def defaultMask : BitVec 8 := 3

/-- Every block at its power-on value (R177 step 2 and its table), over a working copy, with the settings image as it
stands. -/
def State.powerOn (settings : Settings) (defaulted : Bool) (image : Option Settings) : State where
  permits := Table.replicate 512 none
  occupants := Table.replicate 64 none
  lists := Table.replicate 16 []
  uncertain := Table.replicate 16 true
  pairs := Table.replicate 16 none
  doors := Table.replicate 32 Door.atPowerOn
  stations := Table.replicate 64 Station.atPowerOn
  notes := Table.replicate 64 { blankSeen := false, ackSent := false }
  loops := Table.replicate 4 { nextSlot := 0, lastPoll := none }
  zones := Table.replicate 16 Zone.atPowerOn
  alarms := Table.replicate 24 none
  overflow := false
  lostCount := 0
  handedRaises := []
  uptimeMs := 0
  wall := none
  decision := .afterHours
  reference := { state := .backup, entered := 0, provingEnd := none }
  framer := { step := .idle, answer := none }
  changes := ChangeSet.full
  attentionMask := defaultMask
  supplyRestarted := false
  settingsDefaulted := defaulted
  commitFailed := false
  settings := settings
  image := image
  commit := none
  power := .running
  supply := .normal
  keyOn := false
  pending := []

/-- The machine right after reset: the power-on sequence of a part whose image was never written, so that it fails its
check and the factory defaults are loaded (R176, R177; DESIGN CHOICE of the image, log 1). Unsafe: a part with a
committed image starts from that image. -/
def State.reset : State :=
  State.powerOn Settings.factory true none

end Sys2Proof.Machine
end

