-- ==== Sys2Proof/Machine/Ops.lean ====
section
/-! DEFINITION. The named operations over the records: numbering, time, reading and replacing a record, the change
set, and the end of a cause. Every family goes through these. -/

namespace Sys2Proof.Machine

/-! ### Numbering (00) -/

/-- The outer door 2s of a strongroom. -/
def outerDoor (r : Room) : DoorNo := ⟨2 * r.val, by omega⟩

/-- The inner door 2s + 1 of a strongroom. -/
def innerDoor (r : Room) : DoorNo := ⟨2 * r.val + 1, by omega⟩

/-- The strongroom of a door. -/
def roomOf (d : DoorNo) : Room := ⟨d.val / 2, by omega⟩

/-- The door is an outer door. -/
def isOuter (d : DoorNo) : Bool := decide (d.val % 2 = 0)

/-- The other door of the same strongroom (R50). -/
def partner (d : DoorNo) : DoorNo :=
  if isOuter d then innerDoor (roomOf d) else outerDoor (roomOf d)

/-- The loop of a station address (R78). -/
def loopOf (t : StationId) : LoopNo := ⟨t.val / 16, by omega⟩

/-- The slot of a station address on its loop (R78). -/
def slotOf (t : StationId) : Fin 16 := ⟨t.val % 16, by omega⟩

/-- The address of a slot of a loop (R78). -/
def address (l : LoopNo) (k : Fin 16) : StationId := ⟨16 * l.val + k.val, by omega⟩

/-! ### Time (R147, R148) -/

/-- Uptime seconds (R147). -/
def State.uptimeSec (s : State) : Nat := s.uptimeMs / 1000

/-- The instant `seconds` after the present uptime (R148). -/
def State.after (s : State) (seconds : Nat) : Nat := s.uptimeMs + 1000 * seconds

/-- An instant as a record reports it: whole seconds, rounded up (R148). -/
def reportSec (instant : Nat) : Nat := (instant + 999) / 1000

/-- The instant of a timer is present and has been reached. -/
def State.reached (s : State) (deadline : Option Nat) : Bool :=
  match deadline with
  | some t => decide (t ≤ s.uptimeMs)
  | none => false

/-! ### Running, supply and level -/

/-- The part runs: it is not held and the image is loaded (R177). -/
def State.running (s : State) : Bool := decide (s.power = .running)

/-- The supply monitor is in LOW (R182). -/
def State.inLow (s : State) : Bool :=
  match s.supply with
  | .normal => false
  | .low _ => true

/-- The part runs and its supply is NORMAL: field timers are taken and the loops poll (R76, R80, R122, R144). -/
def State.fieldLive (s : State) : Bool := s.running && !s.inLow

/-! ### Records -/

def State.permit (s : State) (p : PermitIx) : Option Permit := s.permits.get p
def State.occupant (s : State) (o : Slot) : Option Occupant := s.occupants.get o
def State.list (s : State) (r : Room) : List Slot := s.lists.get r
def State.pair (s : State) (r : Room) : Option PendingPair := s.pairs.get r
def State.door (s : State) (d : DoorNo) : Door := s.doors.get d
def State.station (s : State) (t : StationId) : Station := s.stations.get t
def State.note (s : State) (t : StationId) : HandshakeNotes := s.notes.get t
def State.zone (s : State) (z : Room) : Zone := s.zones.get z
def State.alarm (s : State) (a : AlarmSlot) : Option Alarm := s.alarms.get a
def State.doorSettings (s : State) (d : DoorNo) : DoorSettings := s.settings.doors.get d
def State.zoneSettings (s : State) (z : Room) : ZoneSettings := s.settings.zones.get z
def State.entry (s : State) (t : StationId) : StationEntry := s.settings.stations.get t

def State.setPermit (s : State) (p : PermitIx) (x : Option Permit) : State :=
  { s with permits := s.permits.set p x }
def State.setOccupant (s : State) (o : Slot) (x : Option Occupant) : State :=
  { s with occupants := s.occupants.set o x }
def State.setList (s : State) (r : Room) (x : List Slot) : State :=
  { s with lists := s.lists.set r x }
def State.setPair (s : State) (r : Room) (x : Option PendingPair) : State :=
  { s with pairs := s.pairs.set r x }
def State.setDoor (s : State) (d : DoorNo) (x : Door) : State :=
  { s with doors := s.doors.set d x }
def State.setStation (s : State) (t : StationId) (x : Station) : State :=
  { s with stations := s.stations.set t x }
def State.setNote (s : State) (t : StationId) (x : HandshakeNotes) : State :=
  { s with notes := s.notes.set t x }
def State.setZone (s : State) (z : Room) (x : Zone) : State :=
  { s with zones := s.zones.set z x }
def State.setAlarm (s : State) (a : AlarmSlot) (x : Option Alarm) : State :=
  { s with alarms := s.alarms.set a x }

/-- The claim of unrecorded entry: the strongroom becomes UNCERTAIN (R25). -/
def State.claimUncertain (s : State) (r : Room) : State :=
  { s with uncertain := s.uncertain.set r true }

/-! ### The change set (R169) -/

namespace ChangeSet

/-- The identity is in the set. -/
def has (c : ChangeSet) : Identity → Bool
  | .zone z => c.zones.get z
  | .alarm a => c.alarms.get a
  | .door d => c.doors.get d
  | .roster o => c.roster.get o
  | .station t => c.stations.get t
  | .permit p => c.permits.get p
  | .clock => c.clock
  | .status => c.status

/-- The set with one identity put in or taken out. -/
def put (c : ChangeSet) (b : Bool) : Identity → ChangeSet
  | .zone z => { c with zones := c.zones.set z b }
  | .alarm a => { c with alarms := c.alarms.set a b }
  | .door d => { c with doors := c.doors.set d b }
  | .roster o => { c with roster := c.roster.set o b }
  | .station t => { c with stations := c.stations.set t b }
  | .permit p => { c with permits := c.permits.set p b }
  | .clock => { c with clock := b }
  | .status => { c with status := b }

/-- The indices of the marked records of one kind, ascending. -/
def indices {n : Nat} (t : Table n Bool) : List (Fin n) :=
  (List.finRange n).filter fun i => t.get i

/-- The identities in take order (R170). -/
def members (c : ChangeSet) : List Identity :=
  (indices c.zones).map .zone ++ (indices c.alarms).map .alarm ++ (indices c.doors).map .door
    ++ (indices c.roster).map .roster ++ (indices c.stations).map .station ++ (indices c.permits).map .permit
    ++ (if c.clock then [.clock] else []) ++ (if c.status then [.status] else [])

/-- The number of identities in the set. -/
def size (c : ChangeSet) : Nat :=
  c.zones.count id + c.alarms.count id + c.doors.count id + c.roster.count id + c.stations.count id
    + c.permits.count id + c.clock.toNat + c.status.toNat

/-- The set without the given identities. -/
def without (c : ChangeSet) (ids : List Identity) : ChangeSet :=
  ids.foldl (fun c i => c.put false i) c

end ChangeSet

/-- Mark an identity (R169). -/
def State.mark (s : State) (i : Identity) : State :=
  { s with changes := s.changes.put true i }

/-! ### Alarms handed to the staff alarm unit -/

/-- A block hands a raise; it is taken at the end of the event, in the order of R126 (log 8). -/
def State.raise (s : State) (key : AlarmKey) (permit : Option PermitIx) : State :=
  { s with handedRaises := s.handedRaises ++ [⟨key, permit⟩] }

/-- The record with its cause ended; DURESS has no ending cause (R124, R128). -/
def Alarm.endCause (a : Alarm) : Alarm :=
  { a with cause := a.cause.map fun _ => false }

/-- The end of a cause clears cause present in every record with the key (R128). -/
def State.endCause (s : State) (key : AlarmKey) : State :=
  { s with alarms := s.alarms.map fun x => x.map fun a => if a.key = key then a.endCause else a }

def keyDuress (r : Room) (d : DoorNo) (o : Option Slot) : AlarmKey := ⟨.duress, some r, some d, o, none⟩
def keyTrapped (r : Room) : AlarmKey := ⟨.trapped, some r, none, none, none⟩
def keySuppressionFailed (r : Room) : AlarmKey := ⟨.suppressionFailed, some r, none, none, none⟩
def keyLoneWorker (r : Room) (o : Slot) : AlarmKey := ⟨.loneWorker, some r, none, some o, none⟩
def keyForced (d : DoorNo) : AlarmKey := ⟨.forcedDoor, some (roomOf d), some d, none, none⟩
def keyUnescorted (r : Room) : AlarmKey := ⟨.unescorted, some r, none, none, none⟩
def keyHeld (d : DoorNo) : AlarmKey := ⟨.doorHeld, some (roomOf d), some d, none, none⟩

/-- PANIC of a station names the station, the strongroom its role gives, and a door station's door (R129). -/
def keyPanic (t : StationId) : Role → AlarmKey
  | .door d => ⟨.panic, some (roomOf d), some d, none, some t⟩
  | .zone z => ⟨.panic, some z, none, none, some t⟩
  | .unused | .muster => ⟨.panic, none, none, none, some t⟩

/-- STATION_LOST of a station (R84, R125). -/
def keyStationLost (t : StationId) : Role → AlarmKey
  | .door d => ⟨.stationLost, some (roomOf d), some d, none, some t⟩
  | .zone z => ⟨.stationLost, some z, none, none, some t⟩
  | .unused | .muster => ⟨.stationLost, none, none, none, some t⟩

/-! ### Door reading helpers -/

/-- The door is SECURED. -/
def State.secured (s : State) (d : DoorNo) : Bool := decide ((s.door d).state = .secured)

/-- The grant is an entry grant (R66). -/
def GrantKind.isEntry : GrantKind → Bool
  | .entry | .innerEntry | .remoteEntry => true
  | .exit | .anonymousExit => false

/-- An exit's kind follows from whether it names a slot (R62, R63). -/
def exitKind (slots : List Slot) : GrantKind :=
  match slots with
  | [] => .anonymousExit
  | _ :: _ => .exit

/-- The zone admits people: NORMAL or ISOLATED (R29). -/
def ZoneState.admits : ZoneState → Bool
  | .normal | .isolated => true
  | _ => false

/-! ### Stations (R51, R79, R80, R98) -/

/-- The address whose role serves the record, if there is one. -/
def State.serving (s : State) (role : Role) : Option StationId :=
  s.settings.stations.findIx? fun e => decide (e.role = role)

/-- The last slot of a loop's poll cycle: the first slot with the last flag, else slot 15 (R80). -/
def cycleEnd (stations : Table 64 StationEntry) (l : LoopNo) : Fin 16 :=
  ((List.finRange 16).find? fun k => (stations.get (address l k)).last).getD 15

/-- The address is polled (R80). -/
def inCycle (stations : Table 64 StationEntry) (t : StationId) : Bool :=
  decide (slotOf t ≤ cycleEnd stations (loopOf t))

/-- The zone is in contact: its serving station is PRESENT (R98). -/
def State.inContact (s : State) (z : Room) : Bool :=
  match s.serving (.zone z) with
  | some t => decide ((s.station t).presence = .present)
  | none => false

/-- The number of LOST stations of a loop (R84). -/
def State.lostStations (s : State) (l : LoopNo) : Nat :=
  ((List.finRange 16).filter fun k => decide ((s.station (address l k)).presence = .lost)).length

/-- The station of a loop whose presentation the admission unit holds undecided (R27, R89). -/
def State.handedStation (s : State) (l : LoopNo) : Option StationId :=
  ((List.finRange 16).map (address l)).find? fun t =>
    match (s.station t).handshake with
    | .handed _ => true
    | _ => false

/-! ### Roster reading helpers (R21) -/

/-- The count of a strongroom: the length of its list (R21). -/
def State.roomCount (s : State) (r : Room) : Nat := (s.list r).length

/-- The total count: the sum of the sixteen counts (R21). -/
def State.totalCount (s : State) : Nat := (s.lists.toList.map List.length).sum

/-- The class of the permit of a record. -/
def State.slotClass (s : State) (o : Slot) : Option PermitClass :=
  (s.occupant o).bind fun x => (s.permit x.permit).map Permit.cls

/-- The strongroom's list holds a record whose permit has class STAFF or GUARD (R31). -/
def State.escorted (s : State) (r : Room) : Bool :=
  (s.list r).any fun o => s.slotClass o = some .staff || s.slotClass o = some .guard

/-- The strongroom is unescorted: a VISITOR record and no STAFF or GUARD record (R143). -/
def State.unescorted (s : State) (r : Room) : Bool :=
  ((s.list r).any fun o => decide (s.slotClass o = some .visitor)) && !s.escorted r

/-- The slots of the strongroom's records in phase INSIDE, in list order. -/
def State.insideSlots (s : State) (r : Room) : List Slot :=
  (s.list r).filter fun o => (s.occupant o).any fun x => decide (x.phase = .inside)

/-! ### Hold-reason conditions (R106) -/

/-- The contact the door controller last took is OPEN, or none has been taken (R106). -/
def State.contactOpen (s : State) (d : DoorNo) : Bool := decide ((s.door d).contact ≠ some .closed)

/-- The conditions of the five hold reasons as they stand (R106). -/
def State.conditions (s : State) (z : Room) : HoldReasons where
  abort := (s.zone z).abort
  occupied := decide (s.list z ≠ [])
  uncertain := s.uncertain.get z
  doorOpen := s.contactOpen (outerDoor z) || s.contactOpen (innerDoor z)
  stationLost := !s.inContact z

end Sys2Proof.Machine
end

