-- ==== Sys2Proof/Machine/Flags.lean ====
section
/-! DEFINITION. Every output and flag that is computed from the records: bolt drive, indicator and buzzer of a door,
sounder and beacon of a zone, the muster indicator, the status flags and the three direct lines. The owners "set them
again" whenever what they depend on changes, so each is a function of the state. -/

namespace Sys2Proof.Machine

/-! ### Door outputs (R51) -/

/-- The bolt drive (R51). A door in FAULT drives WITHDRAW while it drives an exit. -/
def boltDrive (d : Door) (c : DoorSettings) : BoltDrive :=
  match d.state with
  | .secured | .bolting => .throw
  | .unbolting | .released | .opened | .closedWait => .withdraw
  | .fault .stationLost =>
    match c.failMode with
    | .failSecure => .throw
    | .failRelease => .withdraw
  | .fault .boltJam | .fault .sensorConflict => if d.grant.isSome then .withdraw else .throw

/-- The indicator (R51). -/
def indicator (d : Door) : Indicator :=
  match d.state with
  | .secured | .unbolting | .bolting => .red
  | .released | .opened | .closedWait => if d.grant.isSome || d.effMode = .holdOpen then .green else .amber
  | .fault _ => .amber

/-! ### Watches (R142) -/

/-- A LONE_WORKER record names the slot (R139). -/
def Alarm.namesLoneWorker (o : Slot) (a : Alarm) : Bool :=
  decide (a.key.kind = .loneWorker) && decide (a.key.occupant = some o)

/-- The slot is named by a LONE_WORKER record (R139). -/
def State.namedLoneWorker (s : State) (o : Slot) : Bool :=
  s.alarms.any fun x => x.any (Alarm.namesLoneWorker o)

/-- The LONE_WORKER record that names the slot has its cause present (R142). -/
def State.loneWorkerCause (s : State) (o : Slot) : Bool :=
  s.alarms.any fun x => x.any fun a => a.namesLoneWorker o && decide (a.cause = some true)

/-- The watch of a slot. -/
def State.watch (s : State) (o : Slot) : Option Watch := (s.occupant o).bind Occupant.watch

/-- A watch is sounding (R142). -/
def State.sounding (s : State) (o : Slot) : Bool :=
  match s.watch o with
  | none => false
  | some w =>
    match w.stage with
    | .zero => false
    | .one | .two => true
    | .three => !s.namedLoneWorker o || s.loneWorkerCause o

/-- The watch has come to the stage at which it asks for the chime (R142). -/
def State.chimeStage (s : State) (o : Slot) : Bool :=
  match s.watch o with
  | some w => decide (w.stage = .two) || decide (w.stage = .three)
  | none => false

/-- The buzzer of a door (R135). -/
def State.buzzer (s : State) (d : DoorNo) : Bool :=
  (s.alarms.any fun x => x.any fun a =>
    (decide (a.key.kind = .forcedDoor) || decide (a.key.kind = .doorHeld)) && decide (a.key.door = some d)
      && !a.acknowledged && decide (a.cause = some true))
  || (!isOuter d && (s.list (roomOf d)).any s.sounding)

/-- The staff alarm unit's CHIME request on a zone (R142). -/
def State.chimeRequest (s : State) (z : Room) : Bool :=
  (s.list z).any fun o => s.sounding o && s.chimeStage o

/-! ### Zone outputs (R100) -/

/-- The sounder of a zone (R100). -/
def State.sounder (s : State) (z : Room) : Sounder :=
  match (s.zone z).state with
  | .normal | .isolated => if s.chimeRequest z then .chime else .off
  | .firstAlarm => .chime
  | .predischarge | .held | .releasing => .predischarge
  | .discharged | .releaseFailed => .released

/-- The beacon of a zone (R100). -/
def ZoneState.beacon : ZoneState → Bool
  | .normal | .isolated | .firstAlarm => false
  | .predischarge | .held | .releasing | .discharged | .releaseFailed => true

/-! ### Status flags (R173) -/

/-- ROSTER_HIGH (R24). -/
def State.rosterHigh (s : State) : Bool := decide (s.settings.rosterHigh ≤ s.totalCount)

/-- COMMIT_BUSY (R173). -/
def State.commitBusy (s : State) : Bool := s.commit.isSome

/-- CLOCK_INVALID (R149). -/
def State.clockInvalid (s : State) : Bool := s.wall.isNone

/-! ### Direct lines (R101, R134, R172, R177, R183) -/

/-- A zone state that asserts SUPPRESSION_ACTIVE (R101). -/
def ZoneState.suppression : ZoneState → Bool
  | .predischarge | .held | .releasing | .discharged | .releaseFailed => true
  | .normal | .isolated | .firstAlarm => false

/-- SUPPRESSION_ACTIVE as its owner computes it (R101). -/
def State.suppressionNow (s : State) : Bool := s.zones.any fun z => z.state.suppression

/-- GUARD as its owner computes it: a RAISED record or the overflow condition (R134). -/
def State.guardNow (s : State) : Bool := (s.alarms.any fun x => x.any fun a => !a.acknowledged) || s.overflow

/-- The mask enables a kind; the bits stand for the kinds in code order (R171, 11). -/
def maskBit (mask : BitVec 8) (kind : Nat) : Bool := mask.getLsbD kind

/-- ATTN as its owner computes it: an identity of an enabled kind is in the set (R172). -/
def State.attnNow (s : State) : Bool :=
  (maskBit s.attentionMask 0 && s.changes.zones.any id)
  || (maskBit s.attentionMask 1 && s.changes.alarms.any id)
  || (maskBit s.attentionMask 2 && s.changes.doors.any id)
  || (maskBit s.attentionMask 3 && s.changes.roster.any id)
  || (maskBit s.attentionMask 4 && s.changes.stations.any id)
  || (maskBit s.attentionMask 5 && s.changes.permits.any id)
  || (maskBit s.attentionMask 6 && s.changes.clock)
  || (maskBit s.attentionMask 7 && s.changes.status)

/-- The lines as their owners compute them. -/
def State.linesNow (s : State) : Lines := ⟨s.guardNow, s.suppressionNow, s.attnNow⟩

/-- The direct output lines: computed while NORMAL, held in LOW (R183), negated while the part is held (R177). -/
def State.lines (s : State) : Lines :=
  match s.power with
  | .running =>
    match s.supply with
    | .normal => s.linesNow
    | .low p => p.lines
  | .held _ _ | .loading => ⟨false, false, false⟩

/-- The muster indicator: AMBER while SUPPRESSION_ACTIVE is asserted (R93). -/
def State.musterIndicator (s : State) : Indicator :=
  if s.lines.suppressionActive then .amber else .green

/-! ### Output fields (R93, 11 "Output field") -/

/-- The code of an indicator (11). -/
def Indicator.code : Indicator → Nat
  | .red => 0 | .green => 1 | .amber => 2

/-- The code of a sounder pattern (11). -/
def Sounder.code : Sounder → Nat
  | .off => 0 | .chime => 1 | .predischarge => 2 | .released => 3

/-- The output field of a door station. -/
def State.doorOutput (s : State) (d : DoorNo) : Byte :=
  let drive := match boltDrive (s.door d) (s.doorSettings d) with
    | .throw => 0
    | .withdraw => 1
  BitVec.ofNat 8 (drive + 2 * (indicator (s.door d)).code + 8 * (s.buzzer d).toNat)

/-- The output field of a zone station. -/
def State.zoneOutput (s : State) (z : Room) : Byte :=
  BitVec.ofNat 8 ((s.sounder z).code + 4 * (s.zone z).state.beacon.toNat + 8 * (s.zone z).mainFire.toNat
    + 16 * (s.zone z).reserveFire.toNat)

/-- The output field of a station by its role. -/
def State.stationOutput (s : State) (t : StationId) : Byte :=
  match (s.entry t).role with
  | .door d => s.doorOutput d
  | .zone z => s.zoneOutput z
  | .muster => BitVec.ofNat 8 (2 * s.musterIndicator.code)
  | .unused => 0

/-! ### What the host link's data-out pin carries (R160) -/

inductive DataOut where
  /-- Between windows. -/
  | highImpedance
  /-- FFh. -/
  | filler
  /-- The answer, after any filler. -/
  | answer (a : Answer)
deriving DecidableEq, Repr

/-- The data out of a window step (R160). -/
def Framer.dataOut (f : Framer) : DataOut :=
  match f.step, f.answer with
  | .idle, _ => .highImpedance
  | .answering, some a => .answer a
  | .answering, none | .receiving, _ | .done, _ | .discarding, _ => .filler

end Sys2Proof.Machine
end

