-- ==== Sys2Proof/Machine/AlarmTable.lean ====
section
/-! DEFINITION. The alarm table and the lone-worker watches as shared operations: taking a raise (R126, R127), the
end of an alarm (R141), the evaluation of a watch (R136, R137) and the LONE_WORKER raise (R139). -/

namespace Sys2Proof.Machine

/-! ### Kinds (R124, R125) -/

/-- The place of a kind in the list of R124. -/
def AlarmKind.code : AlarmKind → Nat
  | .duress => 0 | .panic => 1 | .trapped => 2 | .suppressionFailed => 3 | .loneWorker => 4 | .forcedDoor => 5
  | .unescorted => 6 | .doorHeld => 7 | .stationLost => 8

/-- The severity, 1 the most severe (R125). -/
def AlarmKind.severity : AlarmKind → Nat
  | .duress | .panic | .trapped | .suppressionFailed => 1
  | .loneWorker | .forcedDoor => 2
  | .unescorted | .doorHeld | .stationLost => 3

/-- Cause present as a raise sets it: set for kinds with an ending cause, absent for DURESS (R124, R126). -/
def AlarmKind.raisedCause : AlarmKind → Option Bool
  | .duress => none
  | .panic | .trapped | .suppressionFailed | .loneWorker | .forcedDoor | .unescorted | .doorHeld | .stationLost =>
    some true

/-! ### Watch evaluation (R136, R137) -/

/-- The permit of a record has watch_always set. -/
def State.watchAlways (s : State) (p : PermitIx) : Bool := (s.permit p).any Permit.watchAlways

/-- The record qualifies for a watch (R136). -/
def State.qualifies (s : State) (x : Occupant) : Bool :=
  decide (x.phase = .inside)
    && (s.watchAlways x.permit
      || (decide (s.decision = .afterHours) && decide ((s.insideSlots x.room).length = 1)))

/-- A watch at stage 0 with a full check-in period (R137, R140). -/
def State.freshWatch (s : State) (r : Room) : Watch where
  stage := .zero
  deadline := some (s.after (60 * (s.zoneSettings r).checkIn))
  setAt := s.uptimeMs

/-- The watch of a record after an evaluation (R137). -/
def State.evaluatedWatch (s : State) (x : Occupant) : Option Watch :=
  match x.watch with
  | none => if s.qualifies x then some (s.freshWatch x.room) else none
  | some w =>
    match w.stage with
    | .three => some w
    | .zero | .one | .two => if s.qualifies x then some w else none

/-- The watch field of a record, set. -/
def State.setWatch (s : State) (o : Slot) (w : Option Watch) : State :=
  match s.occupant o with
  | none => s
  | some x => s.setOccupant o (some { x with watch := w })

/-- The watch at stage 3 takes the end of its alarm: it restarts if the record qualifies, else it becomes absent
(R141). -/
def State.endOfAlarm (s : State) (o : Slot) : State :=
  match s.occupant o with
  | none => s
  | some x =>
    match x.watch with
    | none => s
    | some w =>
      if w.stage = .three then
        s.setOccupant o (some { x with watch := if s.qualifies x then some (s.freshWatch x.room) else none })
      else s

/-- The removal of an alarm record ends the alarm for the watch it names, if it is a LONE_WORKER record that still
names a slot (R127, R132, R141). -/
def State.alarmRemoved (s : State) (a : Alarm) : State :=
  match a.key.kind, a.key.occupant with
  | .loneWorker, some o => s.endOfAlarm o
  | _, _ => s

/-! ### Taking a raise (R126, R127) -/

/-- The record that a raise places (R126 step 2). -/
def State.placedAlarm (s : State) (r : AlarmRaise) : Alarm where
  key := r.key
  permit := r.permit
  acknowledged := false
  cause := r.key.kind.raisedCause
  firstRaised := s.uptimeSec
  repeats := 0

/-- The record after a repeat (R126 step 1). -/
def Alarm.repeated (a : Alarm) (r : AlarmRaise) : Alarm :=
  { a with
    repeats := min (a.repeats + 1) Config.countMax
    cause := a.key.kind.raisedCause
    acknowledged := false
    permit := r.permit }

/-- The slot of the record that a raise repeats: the lowest with the same identity key (R126). -/
def State.matchingAlarm (s : State) (key : AlarmKey) : Option AlarmSlot :=
  s.alarms.findIx? fun x => x.any fun a => decide (a.key = key)

/-- The lowest free alarm slot. -/
def State.freeAlarm (s : State) : Option AlarmSlot :=
  s.alarms.findIx? Option.isNone

/-- A record that a raise may replace: ACKNOWLEDGED with its cause not present (R127). -/
def Alarm.replaceable (a : Alarm) : Bool :=
  a.acknowledged && decide (a.cause ≠ some true)

/-- The record goes before another as the one to replace: higher severity number, then earlier first raised (R127). -/
def Alarm.givesWayBefore (a b : Alarm) : Bool :=
  decide (b.key.kind.severity < a.key.kind.severity)
    || (decide (a.key.kind.severity = b.key.kind.severity) && decide (a.firstRaised < b.firstRaised))

/-- The better of the choice so far and a slot; slots are tried in ascending order. -/
def State.betterToReplace (s : State) (best : Option AlarmSlot) (i : AlarmSlot) : Option AlarmSlot :=
  match s.alarm i with
  | none => best
  | some a =>
    if a.replaceable then
      match best.bind s.alarm with
      | none => some i
      | some b => if a.givesWayBefore b then some i else best
    else best

/-- The slot whose record a raise replaces in a full table (R127). -/
def State.replaceSlot (s : State) : Option AlarmSlot :=
  (List.finRange 24).foldl s.betterToReplace none

/-- A raise that is lost (R127). -/
def State.loseRaise (s : State) : State :=
  { s with overflow := true, lostCount := min (s.lostCount + 1) Config.countMax }

/-- Take a raise that matches nothing in a full table (R127). The flag says whether it was placed. -/
def State.replaceOrLose (s : State) (r : AlarmRaise) : State × Bool :=
  match s.replaceSlot with
  | none => (s.loseRaise, false)
  | some i =>
    match s.alarm i with
    | none => (s.setAlarm i (some (s.placedAlarm r)), true)
    | some old => ((s.setAlarm i (some (s.placedAlarm r))).alarmRemoved old, true)

/-- Take a raise (R126). The flag says whether it was placed: by match, by a free slot or by replacement. -/
def State.takeRaise (s : State) (r : AlarmRaise) : State × Bool :=
  match s.matchingAlarm r.key with
  | some i => (s.setAlarm i ((s.alarm i).map fun a => a.repeated r), true)
  | none =>
    match s.freeAlarm with
    | some i => (s.setAlarm i (some (s.placedAlarm r)), true)
    | none => s.replaceOrLose r

/-- The order in which the raises of one event are taken: kinds in the order of R124, then ascending strongroom
(R126). -/
def AlarmRaise.before (a b : AlarmRaise) : Bool :=
  decide (a.key.kind.code < b.key.kind.code)
    || (decide (a.key.kind.code = b.key.kind.code)
      && decide ((a.key.room.map Fin.val).getD 16 < (b.key.room.map Fin.val).getD 16))

/-- A raise put into an ordered list, after those it does not go before. -/
def insertRaise (r : AlarmRaise) : List AlarmRaise → List AlarmRaise
  | [] => [r]
  | x :: rest => if r.before x then r :: x :: rest else x :: insertRaise r rest

/-- The raises handed in the event, in the order of R126. -/
def orderRaises (rs : List AlarmRaise) : List AlarmRaise :=
  rs.foldl (fun acc r => insertRaise r acc) []

/-- Take every raise handed in the event, in order. -/
def State.takeRaises (s : State) : State :=
  (orderRaises s.handedRaises).foldl (fun t r => (t.takeRaise r).1) { s with handedRaises := [] }

/-! ### LONE_WORKER (R139) -/

/-- The watch at stage 3 raises LONE_WORKER. Placed: its deadline becomes absent. Lost: its deadline becomes the given
instant. -/
def State.raiseLoneWorker (s : State) (o : Slot) (ifLost : Nat) : State :=
  match s.occupant o with
  | none => s
  | some x =>
    let r := s.takeRaise ⟨keyLoneWorker x.room o, some x.permit⟩
    r.1.setWatch o (some
      { stage := .three, deadline := if r.2 then none else some ifLost, setAt := s.uptimeMs })

/-- The watch is at stage 3 and no LONE_WORKER record names it (R139). -/
def State.unnamedStageThree (s : State) (o : Slot) : Bool :=
  (s.watch o).any (fun w => decide (w.stage = .three)) && !s.namedLoneWorker o

/-- The catch-up raise of one slot (R139). -/
def State.catchUp (s : State) (o : Slot) : State :=
  if s.unnamedStageThree o then s.raiseLoneWorker o (s.uptimeMs + Config.loneWorkerRepeatMs) else s

/-- The catch-up raises, in ascending order of roster slot (R139). -/
def State.catchUps (s : State) : State :=
  (List.finRange 64).foldl State.catchUp s

/-! ### Check-in (R140) -/

/-- The check-in of a slot acts on its watch (R140). -/
def State.takeCheckIn (s : State) (o : Slot) : State :=
  match s.occupant o with
  | none => s
  | some x =>
    match x.watch with
    | none => s
    | some w =>
      if w.stage = .three ∧ s.namedLoneWorker o then
        { s with alarms := s.alarms.map fun y => y.map fun a =>
          if a.namesLoneWorker o then a.endCause else a }
      else s.setOccupant o (some { x with watch := some (s.freshWatch x.room) })

/-! ### References to a slot that leaves the roster (R23, R141) -/

/-- The record with the slot struck; a LONE_WORKER record's cause ends with it (R141). -/
def Alarm.strike (o : Slot) (a : Alarm) : Alarm :=
  if a.key.occupant = some o then
    { a with
      key := { a.key with occupant := none }
      cause := if a.key.kind = .loneWorker then some false else a.cause }
  else a

/-- Every alarm record loses its reference to the slot (R23 step 4). -/
def State.strikeAlarms (s : State) (o : Slot) : State :=
  { s with alarms := s.alarms.map fun x => x.map (Alarm.strike o) }

end Sys2Proof.Machine
end

