-- ==== Sys2Proof/Machine/Event.lean ====
section
/-! DEFINITION. What belongs to every event: the hold reasons brought up to date (R109), the unescorted condition
compared (R143), the raises taken in order (R126), the watches evaluated (R136) and the changed records marked (R169).
An event is a change of the records followed by `finish` (log 6, 7, 8). -/

namespace Sys2Proof.Machine

/-! ### Hold reasons (R109) -/

/-- A reason follows its condition when the condition has changed in the event (R109). -/
def HoldReasons.follow (r before now : HoldReasons) : HoldReasons where
  abort := if before.abort = now.abort then r.abort else now.abort
  occupied := if before.occupied = now.occupied then r.occupied else now.occupied
  uncertain := if before.uncertain = now.uncertain then r.uncertain else now.uncertain
  doorOpen := if before.doorOpen = now.doorOpen then r.doorOpen else now.doorOpen
  stationLost := if before.stationLost = now.stationLost then r.stationLost else now.stationLost

/-- The zone record that counts the resume time (R109). -/
def Zone.resumed (z : Zone) (countdown : Nat) : Zone :=
  { z with
    state := .predischarge
    holdReasons := .empty
    countdown := some countdown
    heldFor := 0
    trappedRaised := false
    countsDue := 0 }

/-- A zone in HELD brings its hold reasons up to date; an empty set starts the resume countdown and ends the cause of
TRAPPED (R109, R110). -/
def State.holdZone (old s : State) (z : Room) : State :=
  if (s.zone z).state = .held then
    let r := (s.zone z).holdReasons.follow (old.conditions z) (s.conditions z)
    if r = (s.zone z).holdReasons then s
    else if r = .empty then
      (s.setZone z ((s.zone z).resumed (s.after (s.zoneSettings z).resume))).endCause (keyTrapped z)
    else s.setZone z { s.zone z with holdReasons := r }
  else s

/-- Every zone in HELD. -/
def State.holdPass (old s : State) : State :=
  (List.finRange 16).foldl (State.holdZone old) s

/-! ### Unescorted strongrooms (R143, R144) -/

/-- The condition of one strongroom before and after the event (R143). -/
def State.unescortedRoom (before : Room → Bool) (s : State) (r : Room) : State :=
  match before r, s.unescorted r with
  | false, true => s.raise (keyUnescorted r) none
  | true, false => s.endCause (keyUnescorted r)
  | _, _ => s

/-- The strongrooms whose list changed in the event. In LOW the evaluation is deferred to the supply restart
(R144). -/
def State.unescortedPass (old s : State) : State :=
  if s.inLow then s
  else ((List.finRange 16).filter fun r => decide (old.list r ≠ s.list r)).foldl
    (State.unescortedRoom old.unescorted) s

/-! ### Watches (R136) -/

/-- A record of the strongroom left the roster in the event (R23). -/
def State.recordLeft (old s : State) (r : Room) : Bool :=
  (old.list r).any fun o => decide (o ∉ s.list r)

/-- An event evaluates the watch of a record: the hours decision changed, a record of its strongroom entered or left
phase INSIDE or left the roster, or its permit's watch_always changed (R136). -/
def State.watchTriggered (old s : State) (x : Occupant) : Bool :=
  decide (old.decision ≠ s.decision) || decide (old.insideSlots x.room ≠ s.insideSlots x.room)
    || State.recordLeft old s x.room || decide (old.watchAlways x.permit ≠ s.watchAlways x.permit)

/-- Every record's watch, evaluated if the event asks for it (R136, R137). -/
def State.watchPass (old s : State) : State :=
  { s with occupants := s.occupants.map fun x => x.map fun o =>
      if State.watchTriggered old s o then { o with watch := s.evaluatedWatch o } else o }

/-! ### Marking (R169) -/

/-- What the DOOR identity stands for: the record less the inputs it read, its settings, an outer door's pending pair
and its outputs (R50, R93, R169). -/
structure DoorView where
  record : Door
  settings : DoorSettings
  pair : Option PendingPair
  buzzer : Bool
  drive : BoltDrive
  indicator : Indicator
deriving DecidableEq, Repr

/-- What the ZONE identity stands for: the record, its settings, the UNCERTAIN flag, the CHIME request and the sounder
(R97, R100, R169). -/
structure ZoneView where
  record : Zone
  settings : ZoneSettings
  uncertain : Bool
  chime : Bool
  sounder : Sounder
deriving DecidableEq, Repr

/-- What the STATION identity stands for (R78, R179). -/
structure StationView where
  record : Station
  entry : StationEntry
  polled : Bool
deriving DecidableEq, Repr

/-- What the CLOCK identity stands for, less the counting (R147, R149, R153, R155, R157). -/
structure ClockView where
  valid : Bool
  decision : HoursDecision
  refState : RefState
  refEntered : Nat
  windows : Table 16 (Option HoursWindow)
deriving DecidableEq, Repr

/-- What the STATUS identity stands for: the first nine items of R173. -/
structure StatusView where
  settingsDefaulted : Bool
  commitFailed : Bool
  commitBusy : Bool
  rosterHigh : Bool
  overflow : Bool
  supplyRestarted : Bool
  clockInvalid : Bool
  lost : List Nat
  lostCount : Nat
deriving DecidableEq, Repr

def State.doorView (s : State) (d : DoorNo) : DoorView where
  record := { s.door d with contact := none, bolt := none }
  settings := s.doorSettings d
  pair := if isOuter d then s.pair (roomOf d) else none
  buzzer := s.buzzer d
  drive := boltDrive (s.door d) (s.doorSettings d)
  indicator := indicator (s.door d)

def State.zoneView (s : State) (z : Room) : ZoneView where
  record := { s.zone z with countsDue := 0 }
  settings := s.zoneSettings z
  uncertain := s.uncertain.get z
  chime := s.chimeRequest z
  sounder := s.sounder z

def State.stationView (s : State) (t : StationId) : StationView where
  record := s.station t
  entry := s.entry t
  polled := inCycle s.settings.stations t

def State.clockView (s : State) : ClockView where
  valid := s.wall.isSome
  decision := s.decision
  refState := s.reference.state
  refEntered := s.reference.entered
  windows := s.settings.windows

def State.statusView (s : State) : StatusView where
  settingsDefaulted := s.settingsDefaulted
  commitFailed := s.commitFailed
  commitBusy := s.commitBusy
  rosterHigh := s.rosterHigh
  overflow := s.overflow
  supplyRestarted := s.supplyRestarted
  clockInvalid := s.clockInvalid
  lost := (List.finRange 4).map s.lostStations
  lostCount := s.lostCount

/-- The marks of one kind whose records the table itself holds: kept, and set where the record changed. -/
def markTable {n : Nat} {α : Type} [DecidableEq α] (marks : Table n Bool) (old new : Table n α) : Table n Bool :=
  Table.zipWith (fun m c => m || c) marks (Table.zipWith (fun a b => decide (a ≠ b)) old new)

/-- The marks of one kind whose records are views. -/
def markViews {n : Nat} {β : Type} [DecidableEq β] (marks : Table n Bool) (old new : Fin n → β) : Table n Bool :=
  Table.zipWith (fun m c => m || c) marks (Table.ofFn fun i => decide (old i ≠ new i))

/-- Every identity whose record the event changed is marked (R169). A deadline is compared by its instant in milliseconds,
so that one set again marks its record also where its value in whole seconds comes out as before (the model's choice,
log 45). -/
def State.markPass (old s : State) : State :=
  { s with changes :=
      { zones := markViews s.changes.zones old.zoneView s.zoneView
        alarms := markTable s.changes.alarms old.alarms s.alarms
        doors := markViews s.changes.doors old.doorView s.doorView
        roster := markTable s.changes.roster old.occupants s.occupants
        stations := markViews s.changes.stations old.stationView s.stationView
        permits := markTable s.changes.permits old.permits s.permits
        clock := s.changes.clock || decide (old.clockView ≠ s.clockView)
        status := s.changes.status || decide (old.statusView ≠ s.statusView) } }

/-! ### An event -/

/-- What ends an event (log 7, 8): hold reasons, unescorted conditions, raises, watches, marks. -/
def State.finish (old s : State) : State :=
  State.markPass old (State.watchPass old (State.unescortedPass old (State.holdPass old s)).takeRaises)

/-- An event of the running part: the change of the records, then what ends every event. While the part is held no
event is taken (R177). -/
def State.event (s : State) (change : State → State) : State :=
  if s.running then State.finish s (change { s with handedRaises := [] }) else s

/-- An event of the field: it is taken only while the supply is NORMAL (R76, R80, R122, R144). -/
def State.fieldEvent (s : State) (change : State → State) : State :=
  if s.inLow then s else s.event change

/-! ### A request (R163, R164) -/

/-- The request's answer is ready: the framer is ANSWERING with it. -/
def State.answering (s : State) (a : Answer) : State :=
  { s with framer := { step := .answering, answer := some a } }

/-- A request that may change records: it is taken as one event when its last byte is accepted, that is in RECEIVING
(R160, R163); in any other step its bytes are not read. -/
def State.serve (s : State) (act : State → Answer × State) : State :=
  if s.framer.step = .receiving then
    s.event fun t => (act t).2.answering (act t).1
  else s

/-- A request that changes no record. -/
def State.report (s : State) (answer : State → Answer) : State :=
  if s.running ∧ s.framer.step = .receiving then s.answering (answer s) else s

/-- An OK answer. -/
def Answer.ok (payload : List Byte := []) : Answer := ⟨.ok, payload⟩

end Sys2Proof.Machine
end

