-- ==== Sys2Proof/Machine/Operands.lean ====
section
/-! DEFINITION. The operands of requests and the fields of answers: which record an index names, the codes of
enumerated values, absent fields, and numbers as bytes, high byte first (11 "Encodings"). -/

namespace Sys2Proof.Machine

/-! ### Indices -/

/-- The record an index names, if it is in range. -/
def named? (n : Nat) (index : BitVec 16) : Option (Fin n) :=
  if h : index.toNat < n then some ⟨index.toNat, h⟩ else none

/-- A request on a record of a kind: an index out of range is refused BAD_VALUE before any other check. -/
def onRecord {n : Nat} (index : BitVec 16) (s : State) (act : Fin n → State → Answer × State) : Answer × State :=
  match named? n index with
  | some i => act i s
  | none => (⟨.badValue, []⟩, s)

/-- A reading request on a record of a kind. -/
def readRecord {n : Nat} (index : BitVec 16) (s : State) (answer : Fin n → State → Answer) : Answer :=
  match named? n index with
  | some i => answer i s
  | none => ⟨.badValue, []⟩

/-! ### Numbers as bytes -/

/-- One byte of a number. -/
def byte (v : Nat) : Byte := BitVec.ofNat 8 v

/-- Two bytes, high byte first. -/
def num2 (v : Nat) : List Byte := [byte (v / 256), byte v]

/-- Three bytes, high byte first. -/
def num3 (v : Nat) : List Byte := [byte (v / 65536), byte (v / 256), byte v]

/-- Four bytes, high byte first. -/
def num4 (v : Nat) : List Byte := [byte (v / 16777216), byte (v / 65536), byte (v / 256), byte v]

/-- A flag (11). -/
def flag (b : Bool) : Byte := if b then 1 else 0

/-- A numbered member of a one-byte set. -/
def bit (n : Nat) (b : Bool) : Nat := if b then 2 ^ n else 0

/-- An absent slot, door, station or enumerated value is FFh (11). -/
def optByte (v : Option Nat) : Byte :=
  match v with
  | some x => byte x
  | none => 0xFF

/-- An absent deadline in uptime seconds is 0; a present one is reported rounded up (R148, 11). -/
def deadline4 (v : Option Nat) : List Byte :=
  match v with
  | some t => num4 (reportSec t)
  | none => num4 0

/-- The first and second of up to two named slots. -/
def slots2 (v : List Slot) : List Byte :=
  [optByte (v[0]?.map Fin.val), optByte (v[1]?.map Fin.val)]

/-! ### Codes (11) -/

/-- Reason codes 01h to 1Bh. -/
def Reason.code : Reason → Nat
  | .inUse => 0x01 | .duplicate => 0x02 | .wrongState => 0x03 | .notNormal => 0x04 | .detectorActive => 0x05
  | .stationLost => 0x06 | .interlock => 0x07 | .zoneState => 0x08 | .timeUnset => 0x09 | .unknown => 0x0A
  | .suspended => 0x0B | .expired => 0x0C | .usedUp => 0x0D | .notPermitted => 0x0E | .hours => 0x0F
  | .pinWrong => 0x10 | .pinLocked => 0x11 | .zoneAlarm => 0x12 | .doorMode => 0x13 | .alreadyInside => 0x14
  | .roomFull => 0x15 | .rosterFull => 0x16 | .doorBusy => 0x17 | .escortNeeded => 0x18 | .pairNeeded => 0x19
  | .notInVestibule => 0x1A | .notOnRoster => 0x1B

/-- 00h stands for no reason. -/
def optReason (r : Option Reason) : Byte :=
  match r with
  | some x => byte x.code
  | none => 0

def Result.code : Result → Nat
  | .ok => 0 | .notFound => 1 | .refused => 2 | .busy => 3 | .full => 4 | .privilege => 5 | .badFrame => 6
  | .badValue => 7

def PermitClass.code : PermitClass → Nat
  | .staff => 0 | .guard => 1 | .visitor => 2

def PermitHours.code : PermitHours → Nat
  | .dayOnly => 0 | .anyHours => 1

def PermitState.code : PermitState → Nat
  | .active => 0 | .suspended => 1 | .retiring => 2

def Phase.code : Phase → Nat
  | .admitted => 0 | .vestibule => 1 | .inside => 2 | .leaving => 3

def WatchStage.code : WatchStage → Nat
  | .zero => 0 | .one => 1 | .two => 2 | .three => 3

def FaultCause.code : FaultCause → Nat
  | .boltJam => 0 | .stationLost => 1 | .sensorConflict => 2

def DoorState.code : DoorState → Nat
  | .secured => 0 | .unbolting => 1 | .released => 2 | .opened => 3 | .closedWait => 4 | .bolting => 5
  | .fault _ => 6

/-- The fault cause, present in FAULT only (R50). -/
def DoorState.cause : DoorState → Option FaultCause
  | .fault c => some c
  | _ => none

def BaseMode.code : BaseMode → Nat
  | .normal => 0 | .lockdown => 1 | .holdOpen => 2 | .outOfService => 3

def DoorMode.code : DoorMode → Nat
  | .normal => 0 | .lockdown => 1 | .holdOpen => 2 | .outOfService => 3 | .egress => 4 | .sealed => 5

def GrantKind.code : GrantKind → Nat
  | .entry => 0 | .innerEntry => 1 | .exit => 2 | .anonymousExit => 3 | .remoteEntry => 4

def Contact.code : Contact → Nat
  | .closed => 0 | .opened => 1

def BoltReading.code : BoltReading → Nat
  | .thrown => 0 | .withdrawn => 1 | .between => 2 | .conflict => 3

def BoltDrive.code : BoltDrive → Nat
  | .throw => 0 | .withdraw => 1

def ZoneState.code : ZoneState → Nat
  | .normal => 0 | .isolated => 1 | .firstAlarm => 2 | .predischarge => 3 | .held => 4 | .releasing => 5
  | .discharged => 6 | .releaseFailed => 7

def Attempt.code : Attempt → Nat
  | .none => 0 | .main => 1 | .reserve => 2

def Detector.code : Detector → Nat
  | .normal => 0 | .alarm => 1 | .fault => 2

def Role.code : Role → Nat
  | .unused => 0 | .door _ => 1 | .zone _ => 2 | .muster => 3

/-- The door or zone number of a role. -/
def Role.number : Role → Option Nat
  | .door d => some d.val
  | .zone z => some z.val
  | .unused | .muster => none

def Presence.code : Presence → Nat
  | .unseen => 0 | .present => 1 | .lost => 2

def Handshake.code : Handshake → Nat
  | .idle => 0 | .waiting _ => 1 | .handed _ => 2 | .answering _ _ => 3

def RefState.code : RefState → Nat
  | .backup => 0 | .returning => 1 | .reference => 2

def HoursDecision.code : HoursDecision → Nat
  | .day => 0 | .afterHours => 1

def FailMode.code : FailMode → Nat
  | .failSecure => 0 | .failRelease => 1

/-- The sixteen-bit number of an identity: the kind code times 8 192 plus the index (11). -/
def Identity.code : Identity → Nat
  | .zone z => z.val
  | .alarm a => 8192 + a.val
  | .door d => 2 * 8192 + d.val
  | .roster o => 3 * 8192 + o.val
  | .station t => 4 * 8192 + t.val
  | .permit p => 5 * 8192 + p.val
  | .clock => 6 * 8192
  | .status => 7 * 8192

/-! ### Codes read from requests -/

def permitClass? (b : Byte) : Option PermitClass :=
  match b.toNat with
  | 0 => some .staff
  | 1 => some .guard
  | 2 => some .visitor
  | _ => none

def permitHours? (b : Byte) : Option PermitHours :=
  match b.toNat with
  | 0 => some .dayOnly
  | 1 => some .anyHours
  | _ => none

/-- The host writes ACTIVE or SUSPENDED; RETIRING and unlisted codes are refused (R8). -/
def writtenState? (b : Byte) : Option PermitState :=
  match b.toNat with
  | 0 => some .active
  | 1 => some .suspended
  | _ => none

/-- The base modes; EGRESS and SEALED cannot be set (R70). -/
def baseMode? (b : Byte) : Option BaseMode :=
  match b.toNat with
  | 0 => some .normal
  | 1 => some .lockdown
  | 2 => some .holdOpen
  | 3 => some .outOfService
  | _ => none

/-! ### Answers -/

/-- A REFUSED answer carries its cause (R164, R166). -/
def Answer.refusedFor (r : Reason) : Answer := ⟨.refused, [byte r.code]⟩

/-- The bytes of an answer frame (R164). -/
def Answer.toBytes (a : Answer) : List Byte :=
  withCheck ([0x5A, byte a.result.code, byte a.payload.length] ++ a.payload)

end Sys2Proof.Machine
end

