-- ==== Sys2Proof/Machine/RosterOps.lean ====
section
/-! DEFINITION. Shared operations on permits and the roster: lookup, the link, uses, removal, the creation of records,
a record leaving the roster, and what a passage or an ended grant does to the records it names
(R2, R4, R5, R13, R16, R21, R23, R43, R44). -/

namespace Sys2Proof.Machine

/-! ### Permits -/

/-- Credential lookup: the present permit that carries the number, in any state; 0 matches none (R2). -/
def State.lookup (s : State) (c : Credential) : Option PermitIx :=
  if c = 0 then none else s.permits.findIx? fun x => x.any fun p => decide (p.credential = c)

/-- The permit has an expiry that the valid wall clock has reached (R16). -/
def State.expired (s : State) (p : Permit) : Bool :=
  match p.expiry, s.wall with
  | some e, some w => decide (e ≤ w.minute)
  | _, _ => false

/-- The pending pairs of a permit are dropped (R5, R9, R37). -/
def State.dropPairsOf (s : State) (p : PermitIx) : State :=
  { s with pairs := s.pairs.map fun x => x.filter fun q => decide (q.permit ≠ p) }

/-- The removal of a permit (R5). -/
def State.removePermit (s : State) (p : PermitIx) : State :=
  (s.setPermit p none).dropPairsOf p

/-- The link of a permit is cleared; a RETIRING permit is removed in the same event (R4). -/
def State.unlink (s : State) (p : PermitIx) : State :=
  match s.permit p with
  | none => s
  | some x => if x.state = .retiring then s.removePermit p else s.setPermit p (some { x with occupant := none })

/-- The permit with its link set and one use taken; a count that falls to 0 makes it RETIRING (R4, R13). -/
def Permit.charged (p : Permit) (o : Slot) : Permit :=
  match p.uses with
  | none => { p with occupant := some o }
  | some n =>
    { p with
      occupant := some o
      uses := some (n - 1)
      state := if n - 1 = 0 then .retiring else p.state }

/-- The grant links the permit to its slot and takes one use (R4, R13). -/
def State.chargePermit (s : State) (p : PermitIx) (o : Slot) : State :=
  match s.permit p with
  | none => s
  | some x => s.setPermit p (some (x.charged o))

/-! ### Records -/

/-- The free slots in ascending order. -/
def State.freeSlots (s : State) : List Slot :=
  (List.finRange 64).filter fun o => (s.occupant o).isNone

/-- A record as an entry grant creates it (R33, R36). -/
def State.newOccupant (s : State) (r : Room) (p : PermitIx) (duress : Bool) (partner : Option Slot) : Occupant where
  room := r
  permit := p
  phase := .admitted
  admittedAt := s.uptimeSec
  duress := duress
  partner := partner
  watch := none

/-- A record is created in a slot and joins the end of its strongroom's list; its permit is linked and charged
(R21, R33). -/
def State.createRecord (s : State) (o : Slot) (r : Room) (p : PermitIx) (duress : Bool) (partner : Option Slot) :
    State :=
  ((s.setOccupant o (some (s.newOccupant r p duress partner))).setList r (s.list r ++ [o])).chargePermit p o

/-- A slot struck from a list of named slots. -/
def strike (o : Slot) (slots : List Slot) : List Slot :=
  slots.filter fun x => decide (x ≠ o)

/-- A door record with the slot struck from its grant and its pending exit (R45, R63). -/
def Door.strike (o : Slot) (d : Door) : Door :=
  { d with
    grant := d.grant.map fun g => { g with slots := Machine.strike o g.slots }
    pendingExit := d.pendingExit.map fun e => { e with slots := Machine.strike o e.slots } }

/-- The slot is struck from every outstanding grant and pending exit (R45, R63). -/
def State.strikeGrants (s : State) (o : Slot) : State :=
  { s with doors := s.doors.map (Door.strike o) }

/-- The partner of a leaving record loses its partner link (R23 step 3). -/
def State.clearPartner (s : State) (partner : Option Slot) : State :=
  match partner with
  | none => s
  | some q =>
    match s.occupant q with
    | none => s
    | some x => s.setOccupant q (some { x with partner := none })

/-- A record leaves the roster (R23). What the zone sequencer and the staff alarm unit see of it follows at the end
of the event. -/
def State.leaveRoster (s : State) (o : Slot) : State :=
  match s.occupant o with
  | none => s
  | some x =>
    (((((s.setOccupant o none).setList x.room (strike o (s.list x.room))).unlink x.permit).clearPartner
      x.partner).strikeAlarms o).strikeGrants o

/-! ### What grants do to records (R43, R44) -/

/-- A record moves to a phase. -/
def State.setPhase (s : State) (o : Slot) (p : Phase) : State :=
  match s.occupant o with
  | none => s
  | some x => s.setOccupant o (some { x with phase := p })

/-- The completed passage of a grant at a door moves one named record; a record not in the phase its row moves it
from is left unchanged (R43). -/
def State.movePassed (kind : GrantKind) (d : DoorNo) (s : State) (o : Slot) : State :=
  match s.occupant o with
  | none => s
  | some x =>
    match kind, isOuter d, x.phase with
    | .entry, true, .admitted | .remoteEntry, true, .admitted => s.setPhase o .vestibule
    | .innerEntry, false, .vestibule => s.setPhase o .inside
    | .exit, false, .inside => s.setPhase o .leaving
    | .exit, true, .vestibule | .exit, true, .leaving => s.leaveRoster o
    | _, _, _ => s

/-- A completed passage advances or retires every record that the grant names (R43). -/
def State.passage (s : State) (kind : GrantKind) (d : DoorNo) (slots : List Slot) : State :=
  slots.foldl (State.movePassed kind d) s

/-- An ADMITTED record is retired by the end of its entry grant without passage (R44). -/
def State.retireAdmitted (s : State) (o : Slot) : State :=
  match s.occupant o with
  | some x => if x.phase = .admitted then s.leaveRoster o else s
  | none => s

/-- A grant ends without passage: an ENTRY or REMOTE_ENTRY grant retires the ADMITTED records it names, any other
leaves its records where they were (R44). -/
def State.endWithoutPassage (s : State) (g : Grant) : State :=
  match g.kind with
  | .entry | .remoteEntry => g.slots.foldl State.retireAdmitted s
  | .innerEntry | .exit | .anonymousExit => s

end Sys2Proof.Machine
end

