-- ==== Sys2Proof/Machine/DoorOps.lean ====
section
/-! DEFINITION. The door controller as shared operations: the entries to each state (R51 to R58), grants and exits
(R52, R62 to R64), FAULT (R59 to R61), the modes (R65 to R69) and the supply restart of a door (R76). -/

namespace Sys2Proof.Machine

/-! ### Entries to a state -/

/-- A door record changed by a function. -/
def State.modDoor (s : State) (d : DoorNo) (f : Door → Door) : State :=
  s.setDoor d (f (s.door d))

/-- The end of a travel timer started now (R75). -/
def State.travelEnd (s : State) (d : DoorNo) : Nat := s.after (s.doorSettings d).travelLimit

/-- The end of a grant time started now (R75). -/
def State.grantEnd (s : State) (d : DoorNo) : Nat := s.after (s.doorSettings d).grantTime

/-- The held-open timer runs in every effective mode except HOLD_OPEN and OUT_OF_SERVICE (R55). -/
def DoorMode.timesOpen : DoorMode → Bool
  | .holdOpen | .outOfService => false
  | .normal | .lockdown | .egress | .sealed => true

/-- OPEN, with the grant it serves if any; the held-open timer starts (R55). -/
def State.toOpen (s : State) (d : DoorNo) (g : Option Grant) : State :=
  s.modDoor d fun x =>
    { x with
      state := .opened
      grant := g
      stepDeadline := if x.effMode.timesOpen then some (s.after (s.doorSettings d).heldOpenLimit) else none }

/-- RELEASED with a grant: its lapse deadline is the present uptime plus the grant time (R52, R53, R60). -/
def State.toReleasedWith (s : State) (d : DoorNo) (g : Grant) : State :=
  s.modDoor d fun x =>
    { x with
      state := .released
      grant := some { g with lapse := some (s.grantEnd d) }
      stepDeadline := some (s.grantEnd d) }

/-- RELEASED without a grant and with no step deadline, as in effective HOLD_OPEN (R53 to R56). -/
def State.toReleasedHeld (s : State) (d : DoorNo) : State :=
  s.modDoor d fun x => { x with state := .released, grant := none, stepDeadline := none }

/-- UNBOLTING, with the grant it is for if any. A bolt already WITHDRAWN is taken in the event of entry (R51, R53). -/
def State.toUnbolting (s : State) (d : DoorNo) (g : Option Grant) : State :=
  if (s.door d).bolt = some .withdrawn then
    match g with
    | some g => s.toReleasedWith d g
    | none => s.toReleasedHeld d
  else
    s.modDoor d fun x => { x with state := .unbolting, grant := g, stepDeadline := some (s.travelEnd d) }

/-- An exit driven in FAULT leaves FAULT with the bolt withdrawn: RELEASED, or OPEN if the contact is OPEN (R60). -/
def State.leaveFault (s : State) (d : DoorNo) (g : Grant) : State :=
  if (s.door d).contact = some .opened then s.toOpen d (some g) else s.toReleasedWith d g

/-- FAULT drives an exit: the drive goes to WITHDRAW and the travel timer starts (R60). -/
def State.driveExit (s : State) (d : DoorNo) (g : Grant) : State :=
  if (s.door d).bolt = some .withdrawn then s.leaveFault d g
  else s.modDoor d fun x => { x with grant := some g, stepDeadline := some (s.travelEnd d) }

/-! ### Beginning a grant (R52) -/

/-- A grant that begins takes effect according to the door's state (R52). It is not begun while the door holds another
grant or is in FAULT STATION_LOST. -/
def State.beginGrant (s : State) (d : DoorNo) (g : Grant) : State :=
  if (s.door d).grant.isSome then s
  else match (s.door d).state with
    | .secured | .bolting => s.toUnbolting d (some g)
    | .released | .closedWait => s.toReleasedWith d g
    | .opened | .unbolting => s.modDoor d fun x => { x with grant := some g }
    | .fault .boltJam | .fault .sensorConflict => s.driveExit d g
    | .fault .stationLost => s

/-- The interlock lets an exit begin: the partner is SECURED, or the effective mode is EGRESS or SEALED (R52, R62). -/
def State.interlockOpen (s : State) (d : DoorNo) : Bool :=
  s.secured (partner d) || decide ((s.door d).effMode = .egress) || decide ((s.door d).effMode = .sealed)

/-- An exit can begin at the door (R62). -/
def State.canBegin (s : State) (d : DoorNo) : Bool :=
  (s.door d).grant.isNone && decide ((s.door d).state ≠ .fault .stationLost) && s.interlockOpen d

/-- The grant of an exit that names the slots. -/
def exitGrant (slots : List Slot) : Grant := ⟨exitKind slots, slots, none⟩

/-- The pending exit is released as soon as it could begin (R63), in HOLD_OPEN too (the model's choice, log 44). -/
def State.releasePending (s : State) (d : DoorNo) : State :=
  match (s.door d).pendingExit with
  | none => s
  | some e =>
    if s.canBegin d then
      (s.modDoor d fun x => { x with pendingExit := none }).beginGrant d (exitGrant e.slots)
    else s

/-- The withdrawal for HOLD_OPEN (R68): only while the partner is SECURED and the door holds no grant and no pending
exit. -/
def State.withdrawHoldOpen (s : State) (d : DoorNo) : State :=
  let x := s.door d
  if x.effMode = .holdOpen ∧ s.secured (partner d) ∧ x.grant.isNone ∧ x.pendingExit.isNone then
    match x.state with
    | .secured | .bolting => s.toUnbolting d none
    | .unbolting | .released | .opened | .closedWait | .fault _ => s
  else s

/-- What the door controller checks when a door reaches SECURED or leaves FAULT STATION_LOST: its pending exit, the
partner's pending exit, and HOLD_OPEN waiting on either door (R57, R61, R63, R68). -/
def State.checkWaiting (s : State) (d : DoorNo) : State :=
  (((s.releasePending d).releasePending (partner d)).withdrawHoldOpen d).withdrawHoldOpen (partner d)

/-- SECURED is reached: the cause of FORCED_DOOR ends and what waits is checked (R57, R58). -/
def State.toSecured (s : State) (d : DoorNo) : State :=
  ((s.modDoor d fun x => { x with state := .secured, grant := none, stepDeadline := none }).endCause
    (keyForced d)).checkWaiting d

/-- The record of a door that enters BOLTING (R51). -/
def State.boltingRecord (s : State) (d : DoorNo) : State :=
  s.modDoor d fun x => { x with state := .bolting, grant := none, stepDeadline := some (s.travelEnd d) }

/-- What entering BOLTING sets off: a bolt already THROWN is taken in the event of entry, otherwise the pending exit is
tested (R51, R57, R63; log 19). -/
def State.enteredBolting (s : State) (d : DoorNo) : State :=
  if (s.door d).bolt = some .thrown then s.toSecured d else s.releasePending d

/-- BOLTING (R57). -/
def State.toBolting (s : State) (d : DoorNo) : State :=
  (s.boltingRecord d).enteredBolting d

/-- RELEASED without a grant: no deadline in HOLD_OPEN, the grant time in NORMAL, and BOLTING at once in every other
effective mode (R50, R54). -/
def State.toReleasedBare (s : State) (d : DoorNo) : State :=
  match (s.door d).effMode with
  | .holdOpen => s.toReleasedHeld d
  | .normal =>
    s.modDoor d fun x => { x with state := .released, grant := none, stepDeadline := some (s.grantEnd d) }
  | .lockdown | .outOfService | .egress | .sealed => s.toBolting d

/-! ### The end of a grant -/

/-- The passage of the door's grant is complete: passages counts up, the grant becomes absent, and the records it
names move (R43, R56). -/
def State.completePassage (s : State) (d : DoorNo) : State :=
  match (s.door d).grant with
  | none => s
  | some g =>
    (s.modDoor d fun x => { x with grant := none, passages := x.passages + 1 }).passage g.kind d g.slots

/-- The door's grant ends without passage (R44). -/
def State.endGrant (s : State) (d : DoorNo) : State :=
  match (s.door d).grant with
  | none => s
  | some g => (s.modDoor d fun x => { x with grant := none }).endWithoutPassage g

/-- Where a door goes at a lapse and at the end of the re-bolt delay: BOLTING, but in effective HOLD_OPEN RELEASED
without a grant (R54, R56). There a pending exit that could begin does begin, where R62 would take a new exit with no
effect (the model's choice, log 44). -/
def State.toBoltingOrHeld (s : State) (d : DoorNo) : State :=
  if (s.door d).effMode = .holdOpen then (s.toReleasedHeld d).releasePending d else s.toBolting d

/-! ### FAULT (R59) -/

/-- The disposal of the grant on entry to FAULT, by the state left (R59). -/
def State.disposeGrant (s : State) (d : DoorNo) : State :=
  match (s.door d).state with
  | .opened | .closedWait =>
    match (s.door d).grant with
    | some g => if g.kind.isEntry then s.completePassage d else s.endGrant d
    | none => s
  | .secured | .unbolting | .released | .bolting | .fault _ => s.endGrant d

/-- The record of a door that enters FAULT with a cause. -/
def State.faultRecord (s : State) (d : DoorNo) (c : FaultCause) : State :=
  s.modDoor d fun x => { x with state := .fault c, grant := none, stepDeadline := none }

/-- A door in FAULT keeps its cause, except that STATION_LOST replaces any other (R59). -/
def DoorState.entersFault (st : DoorState) (c : FaultCause) : Bool :=
  match st with
  | .fault c0 => decide (c = .stationLost) && decide (c0 ≠ .stationLost)
  | .secured | .unbolting | .released | .opened | .closedWait | .bolting => true

/-- A door enters FAULT (R59). The end of its grant tests its pending exit (R63). -/
def State.enterFault (s : State) (d : DoorNo) (c : FaultCause) : State :=
  if (s.door d).state.entersFault c then ((s.disposeGrant d).faultRecord d c).releasePending d else s

/-! ### Inputs of a door (R53 to R60) -/

/-- A forced opening (R58). -/
def State.forcedOpen (s : State) (d : DoorNo) : State :=
  (((s.modDoor d fun x => { x with forced := min (x.forced + 1) Config.countMax }).toOpen d none).raise
    (keyForced d) none).claimUncertain (roomOf d)

/-- The contact opens (R53, R54, R56 to R58, R60). -/
def State.contactOpens (s : State) (d : DoorNo) : State :=
  match (s.door d).state with
  | .secured => s.forcedOpen d
  | .unbolting | .released | .closedWait => s.toOpen d (s.door d).grant
  | .bolting => (s.toOpen d none).claimUncertain (roomOf d)
  | .fault .boltJam | .fault .sensorConflict =>
    match (s.door d).grant with
    | some g => s.toOpen d (some g)
    | none => s.claimUncertain (roomOf d)
  | .opened | .fault .stationLost => s

/-- The contact closes (R55). -/
def State.contactCloses (s : State) (d : DoorNo) : State :=
  match (s.door d).state with
  | .opened =>
    if (s.door d).effMode = .holdOpen ∧ (s.door d).grant.isNone then s.toReleasedHeld d
    else s.modDoor d fun x =>
      { x with state := .closedWait, stepDeadline := some (s.after (s.doorSettings d).reboltDelay) }
  | .secured | .unbolting | .released | .closedWait | .bolting | .fault _ => s

/-- The door controller takes a contact value; CLOSED ends the cause of DOOR_HELD in any state (R55). -/
def State.takeContact (s : State) (d : DoorNo) (c : Contact) : State :=
  let t := s.modDoor d fun x => { x with contact := some c }
  match c with
  | .opened => t.contactOpens d
  | .closed => (t.endCause (keyHeld d)).contactCloses d

/-- The door controller takes a bolt reading. A change that the rule of the present state does not name has no effect
other than the new reading (R51, R53, R57 to R60). -/
def State.takeBolt (s : State) (d : DoorNo) (r : BoltReading) : State :=
  let t := s.modDoor d fun x => { x with bolt := some r }
  match r, (t.door d).state with
  | .conflict, .fault _ => t
  | .conflict, _ => t.enterFault d .sensorConflict
  | .withdrawn, .unbolting =>
    match (t.door d).grant with
    | some g => t.toReleasedWith d g
    | none => t.toReleasedBare d
  | .thrown, .bolting => t.toSecured d
  | .withdrawn, .secured | .between, .secured =>
    if (t.door d).contact = some .closed then t.toBolting d else t
  | .withdrawn, .fault .boltJam | .withdrawn, .fault .sensorConflict =>
    match (t.door d).grant with
    | some g => t.leaveFault d g
    | none => t
  | _, _ => t

/-! ### Exits (R62 to R64) -/

/-- The outcome of an exit (R72). -/
inductive ExitOutcome where
  | started | merged | pending | noEffect
deriving DecidableEq, Repr

/-- The exit finds the bolt already kept withdrawn in effective HOLD_OPEN (R62). -/
def Door.heldUnbolted (x : Door) : Bool :=
  decide (x.effMode = .holdOpen) && x.grant.isNone
    && (decide (x.state = .unbolting) || decide (x.state = .released) || decide (x.state = .opened))

/-- The door serves an EXIT or ANONYMOUS_EXIT grant in effective EGRESS (R62). -/
def Door.mergesExit (x : Door) : Bool :=
  decide (x.effMode = .egress) && x.grant.any fun g => !g.kind.isEntry

/-- An exit merged into the present exit grant (R64). A slot that left the roster at the completed passage is not
named by the merged exit, which keeps the kind EXIT, as a grant does when its slot is struck (R45, log 22). -/
def State.mergeExit (s : State) (d : DoorNo) (slots : List Slot) : State :=
  match (s.door d).state, (s.door d).grant with
  | .released, some g => s.toReleasedWith d g
  | .closedWait, some _ =>
    let t := s.completePassage d
    t.toReleasedWith d { exitGrant slots with slots := slots.filter fun o => (t.occupant o).isSome }
  | _, _ => s

/-- Two lists of named slots united, keeping distinct slots up to two (R63). -/
def unite (a b : List Slot) : List Slot :=
  (a ++ b.filter fun o => decide (o ∉ a)).take 2

/-- The pending exit after another exit must wait: it is held, or joined to the one already held (R63). -/
def joinPending (held : Option PendingExit) (slots : List Slot) : PendingExit :=
  match held with
  | none => ⟨slots⟩
  | some e => ⟨unite e.slots slots⟩

/-- The exit becomes the door's pending exit, or joins it (R63). -/
def State.pendExit (s : State) (d : DoorNo) (slots : List Slot) : State :=
  s.modDoor d fun x => { x with pendingExit := some (joinPending x.pendingExit slots) }

/-- The door controller takes an exit that names the slots (R62). -/
def State.takeExit (s : State) (d : DoorNo) (slots : List Slot) : State × ExitOutcome :=
  if (s.door d).heldUnbolted then (s, .noEffect)
  else if (s.door d).mergesExit then (s.mergeExit d slots, .merged)
  else if s.canBegin d then (s.beginGrant d (exitGrant slots), .started)
  else (s.pendExit d slots, .pending)

/-! ### Recomputation (R61) -/

/-- The state of a door computed from its contact and bolt reading (R61). -/
def State.recomputed (s : State) (d : DoorNo) (c : Contact) (r : BoltReading) : State :=
  match c, r with
  | _, .conflict => s.faultRecord d .sensorConflict
  | .closed, .thrown => s.toSecured d
  | .closed, .withdrawn => s.toReleasedBare d
  | .closed, .between => s.toBolting d
  | .opened, .thrown | .opened, .withdrawn | .opened, .between => (s.toOpen d none).claimUncertain (roomOf d)

/-- A door in FAULT STATION_LOST is recomputed from the inputs validated at the return of its station, and what waits
is checked (R61). -/
def State.recompute (s : State) (d : DoorNo) (c : Contact) (r : BoltReading) : State :=
  let t := s.modDoor d fun x => { x with contact := some c, bolt := some r }
  let u := match c with
    | .closed => t.endCause (keyHeld d)
    | .opened => t
  (u.recomputed d c r).checkWaiting d

/-! ### Modes (R65 to R69) -/

/-- A base mode as an effective mode. -/
def BaseMode.effective : BaseMode → DoorMode
  | .normal => .normal | .lockdown => .lockdown | .holdOpen => .holdOpen | .outOfService => .outOfService

/-- The effective mode of a door from its zone's state and its base mode (R65). -/
def effectiveMode (z : ZoneState) (b : BaseMode) : DoorMode :=
  match z with
  | .releasing | .discharged | .releaseFailed => .sealed
  | .predischarge | .held => .egress
  | .normal | .isolated | .firstAlarm => b.effective

/-- A mode in which a door RELEASED without a grant goes to BOLTING (R54). -/
def DoorMode.rebolts : DoorMode → Bool
  | .lockdown | .outOfService | .egress | .sealed => true
  | .normal | .holdOpen => false

/-- The record in its new effective mode: the held-open timer of an OPEN door and the deadline of a door RELEASED
without a grant follow the mode (R50, R55). Leaving HOLD_OPEN or OUT_OF_SERVICE starts the held-open timer in full even
where the limit has already run out in this stay in OPEN, so that DOOR_HELD can be raised again (log 37). -/
def State.modeRecord (s : State) (d : DoorNo) (m : DoorMode) (x : Door) : Door :=
  { x with
    effMode := m
    stepDeadline :=
      match x.state with
      | .opened =>
        if !m.timesOpen then none
        else if !x.effMode.timesOpen then some (s.after (s.doorSettings d).heldOpenLimit)
        else x.stepDeadline
      | .released => if m = .holdOpen ∧ x.grant.isNone then none else x.stepDeadline
      | .secured | .unbolting | .closedWait | .bolting | .fault _ => x.stepDeadline }

/-- A mode change sends a door without a grant to BOLTING (R53, R54, R65). -/
def Door.reboltsOnChange (x : Door) (m : DoorMode) : Bool :=
  x.grant.isNone
    && ((decide (x.state = .released) && (decide (x.effMode = .holdOpen) || m.rebolts))
      || (decide (x.state = .unbolting) && decide (x.effMode = .holdOpen)))

/-- The effective mode of a door becomes another (R65). -/
def State.changeMode (s : State) (d : DoorNo) (m : DoorMode) : State :=
  let x := s.door d
  let s1 := s.modDoor d (s.modeRecord d m)
  let s2 := if x.effMode = .normal ∧ isOuter d then s1.setPair (roomOf d) none else s1
  let s3 := if m = .holdOpen then s2.claimUncertain (roomOf d) else s2
  let s4 := if x.reboltsOnChange m then s3.toBolting d else s3
  let s5 := if m = .egress ∨ m = .sealed then s4.releasePending d else s4
  if m = .holdOpen then s5.withdrawHoldOpen d else s5

/-- The effective mode of a door recomputed (R65). -/
def State.recomputeMode (s : State) (d : DoorNo) : State :=
  let m := effectiveMode (s.zone (roomOf d)).state (s.door d).baseMode
  if (s.door d).effMode = m then s else s.changeMode d m

/-- The door holds an ENTRY, INNER_ENTRY or REMOTE_ENTRY grant. -/
def Door.servesEntry (x : Door) : Bool := x.grant.any fun g => g.kind.isEntry

/-- The zone has left NORMAL and ISOLATED: an entry grant in UNBOLTING or RELEASED ends and the door goes to BOLTING;
in OPEN or CLOSED_WAIT its passage completes later (R66). -/
def State.cancelEntry (s : State) (d : DoorNo) : State :=
  if (s.door d).servesEntry then
    match (s.door d).state with
    | .unbolting | .released => (s.endGrant d).toBolting d
    | .secured | .opened | .closedWait | .bolting | .fault _ => s
  else s

/-! ### Supply restart (R76) -/

/-- The door goes to BOLTING at the supply restart: UNBOLTING or RELEASED, with a grant or, in every effective mode but
HOLD_OPEN, without one (R76). R54 sends a door whose grant lapses in effective HOLD_OPEN to RELEASED without a grant; that
the restart's lapse goes to BOLTING there too is the model's choice between the two rules (log 46). -/
def Door.reboltsAtRestart (x : Door) : Bool :=
  match x.state with
  | .unbolting | .released => x.grant.isSome || decide (x.effMode ≠ .holdOpen)
  | .secured | .opened | .closedWait | .bolting | .fault _ => false

/-- The record of a door at the supply restart: grants in UNBOLTING and RELEASED lapse, running timers start again in
full (R76). A door UNBOLTING without a grant in HOLD_OPEN keeps its state, and the withdrawal that runs again is its own:
the travel timer starts in full (log 17). -/
def State.restartDoor (s : State) (d : DoorNo) : State :=
  let x := s.door d
  match x.state with
  | .unbolting =>
    if x.reboltsAtRestart then (s.endGrant d).boltingRecord d
    else s.modDoor d fun y => { y with stepDeadline := some (s.travelEnd d) }
  | .released => if x.reboltsAtRestart then (s.endGrant d).boltingRecord d else s
  | .opened =>
    s.modDoor d fun y =>
      { y with stepDeadline := y.stepDeadline.map fun _ => s.after (s.doorSettings d).heldOpenLimit }
  | .closedWait =>
    s.modDoor d fun y => { y with stepDeadline := some (s.after (s.doorSettings d).reboltDelay) }
  | .bolting => s.modDoor d fun y => { y with stepDeadline := some (s.travelEnd d) }
  | .fault _ =>
    if x.grant.isSome then s.modDoor d fun y => { y with stepDeadline := some (s.travelEnd d) } else s
  | .secured => s

/-- What entering BOLTING sets off at a door once every record has been treated (log 21). Every other door is kept as
its record was treated (R76). -/
def State.restartFollow (old : State) (s : State) (d : DoorNo) : State :=
  if (old.door d).reboltsAtRestart ∧ (s.door d).state = .bolting then s.enteredBolting d else s

/-- Every door at the supply restart (R76). -/
def State.restartDoors (s : State) : State :=
  (List.finRange 32).foldl (State.restartFollow s) ((List.finRange 32).foldl State.restartDoor s)

end Sys2Proof.Machine
end

