-- ==== Sys2Proof/Machine/ZoneOps.lean ====
section
/-! DEFINITION. The zone sequencer as shared operations: a state change and its hand-offs (R99), detection (R102, R103),
the abort switch (R105), the countdown's end (R107), the attempts (R112, R113) and the supply restart (R122). -/

namespace Sys2Proof.Machine

/-! ### State changes (R99) -/

/-- A zone that leaves NORMAL and ISOLATED cancels the entry grants at its doors and drops the pending pair at its
outer door (R37, R66, R99). -/
def State.leaveAdmitting (s : State) (z : Room) : State :=
  ((s.cancelEntry (outerDoor z)).cancelEntry (innerDoor z)).setPair z none

/-- The zone's new state reaches its doors: their effective modes (R65). -/
def State.recomputeModes (s : State) (z : Room) : State :=
  (s.recomputeMode (outerDoor z)).recomputeMode (innerDoor z)

/-- The zone takes a record in a new state, with the hand-offs of R99 and the end of TRAPPED's cause when it leaves
HELD (R110). -/
def State.changeZone (s : State) (z : Room) (x : Zone) : State :=
  let before := (s.zone z).state
  let s1 := (s.setZone z x).recomputeModes z
  let s2 := if before.admits ∧ !x.state.admits then s1.leaveAdmitting z else s1
  if before = .held ∧ x.state ≠ .held then s2.endCause (keyTrapped z) else s2

/-! ### Records -/

/-- PREDISCHARGE from NORMAL or FIRST_ALARM (R103). -/
def Zone.toPredischarge (x : Zone) (countdown : Nat) : Zone :=
  { x with state := .predischarge, countdown := some countdown, attempt := .none, heldFor := 0 }

/-- HELD with the reasons that stand (R105, R107). -/
def Zone.toHeld (x : Zone) (r : HoldReasons) : Zone :=
  { x with
    state := .held
    countdown := none
    holdReasons := r
    heldFor := 0
    trappedRaised := false
    countsDue := 0 }

/-- A release attempt begins: its fire output on, its pulse and its confirm window running (R112, R113). -/
def Zone.beginAttempt (x : Zone) (a : Attempt) (pulse confirm : Nat) : Zone :=
  { x with
    state := .releasing
    countdown := none
    attempt := a
    mainFire := decide (a = .main)
    reserveFire := decide (a = .reserve)
    pulseEnd := some pulse
    confirmEnd := some confirm }

/-- The release ends: both fire outputs off, no pulse, no window (R99, R112, R113). -/
def Zone.endRelease (x : Zone) (st : ZoneState) : Zone :=
  { x with state := st, mainFire := false, reserveFire := false, pulseEnd := none, confirmEnd := none }

/-- The pulse has ended (R112). -/
def Zone.endPulse (x : Zone) : Zone :=
  { x with mainFire := false, reserveFire := false, pulseEnd := none }

/-- NORMAL by RESET ZONE (R117). -/
def Zone.reset (x : Zone) : Zone :=
  { x with
    state := .normal
    holdReasons := .empty
    countdown := none
    pulseEnd := none
    confirmEnd := none
    heldFor := 0
    trappedRaised := false
    countsDue := 0
    attempt := .none
    mainFire := false
    reserveFire := false }

/-! ### Inputs (R87, R98, 11 "Input code") -/

/-- A detector pair; 11 is no listed value. -/
def detector? (v : BitVec 2) : Option Detector :=
  match v.toNat with
  | 0 => some .normal
  | 1 => some .alarm
  | 2 => some .fault
  | _ => none

/-- The inputs of a zone station. -/
structure ZoneInputs where
  detectorA : Detector
  detectorB : Detector
  abort : Bool
  manualRelease : Bool
  pressure : Bool
  panic : Bool
deriving DecidableEq, Repr

/-- The inputs that a zone station's code carries; none if a detector pair is unlisted. -/
def zoneInputs? (code : Byte) : Option ZoneInputs :=
  match detector? (code.extractLsb' 0 2), detector? (code.extractLsb' 2 2) with
  | some a, some b =>
    some ⟨a, b, code.getLsbD 4, code.getLsbD 5, code.getLsbD 6, code.getLsbD 7⟩
  | _, _ => none

/-- The fields of the record take the new values (R98 step 1). -/
def Zone.withInputs (x : Zone) (i : ZoneInputs) : Zone :=
  { x with
    detectorA := i.detectorA
    detectorB := i.detectorB
    abort := i.abort
    manualRelease := i.manualRelease
    pressure := i.pressure }

/-- Confirmed fire: both detectors in ALARM, or the manual release active (R103). -/
def Zone.confirmedFire (x : Zone) : Bool :=
  (decide (x.detectorA = .alarm) && decide (x.detectorB = .alarm)) || x.manualRelease

/-- A detector is in ALARM. -/
def Zone.detectorAlarm (x : Zone) : Bool := decide (x.detectorA = .alarm) || decide (x.detectorB = .alarm)

/-- Detection on the values the record holds (R98 step 2, R102, R103). -/
def State.detect (s : State) (z : Room) : State :=
  let x := s.zone z
  match x.state with
  | .normal =>
    if x.confirmedFire then s.changeZone z (x.toPredischarge (s.after (s.zoneSettings z).predischarge))
    else if x.detectorAlarm then s.changeZone z { x with state := .firstAlarm }
    else s
  | .firstAlarm =>
    if x.confirmedFire then s.changeZone z (x.toPredischarge (s.after (s.zoneSettings z).predischarge)) else s
  | .isolated | .predischarge | .held | .releasing | .discharged | .releaseFailed => s

/-- An active abort switch in PREDISCHARGE ends the countdown and holds the zone, with its reasons in full (R98 step 3,
R105). -/
def State.applyAbort (s : State) (z : Room) : State :=
  let x := s.zone z
  if x.state = .predischarge ∧ x.abort then s.changeZone z (x.toHeld (s.conditions z)) else s

/-- An active pressure switch in RELEASING confirms the attempt (R98 step 4, R112). -/
def State.applyPressure (s : State) (z : Room) : State :=
  let x := s.zone z
  if x.state = .releasing ∧ x.pressure ∧ x.confirmEnd.isSome then s.changeZone z (x.endRelease .discharged) else s

/-- One new set of zone inputs (R98). Step 5, the hold reasons, comes at the end of the event. -/
def State.takeZoneInputs (s : State) (z : Room) (i : ZoneInputs) : State :=
  (((s.setZone z ((s.zone z).withInputs i)).detect z).applyAbort z).applyPressure z

/-! ### Countdown and release (R107, R112, R113) -/

/-- The main or reserve attempt begins; a pressure field already active confirms it (R112, R113). -/
def State.attempt (s : State) (z : Room) (a : Attempt) : State :=
  (s.changeZone z ((s.zone z).beginAttempt a (s.uptimeMs + Config.pulseMs)
    (s.after (s.zoneSettings z).confirmWindow))).applyPressure z

/-- The decision at the countdown's end (R107). -/
def State.countdownEnds (s : State) (z : Room) : State :=
  let r := s.conditions z
  if r = .empty then s.attempt z .main else s.changeZone z ((s.zone z).toHeld r)

/-- The confirm window ends unconfirmed (R113). -/
def State.confirmEnds (s : State) (z : Room) : State :=
  let x := s.zone z
  if x.attempt = .main then s.attempt z .reserve
  else (s.changeZone z (x.endRelease .releaseFailed)).raise (keySuppressionFailed z) none

/-! ### held_for (R97, R110) -/

/-- OCCUPIED or UNCERTAIN is in the hold reasons. -/
def HoldReasons.counts (r : HoldReasons) : Bool := r.occupied || r.uncertain

/-- held_for after a number of counts (R110). -/
def Zone.heldAfter (x : Zone) (counts : Nat) : Nat := min (x.heldFor + counts) Config.heldForMax

/-- A new uptime second at a zone, at which the hold limit is read (R110). A count that brings held_for to the hold limit
with trapped raised clear is the event HOLD_LIMIT_REACHED, and waits for it (log 5). A second in which the zone does not
count drops what waits. -/
def Zone.count (x : Zone) (holdLimit : Nat) : Zone :=
  if x.state = .held ∧ x.holdReasons.counts then
    if holdLimit ≤ x.heldAfter (x.countsDue + 1) ∧ !x.trappedRaised then { x with countsDue := x.countsDue + 1 }
    else { x with heldFor := x.heldAfter (x.countsDue + 1), countsDue := 0 }
  else { x with countsDue := 0 }

/-- The count that brings held_for of a zone in HELD to the hold limit with trapped raised clear has come (R110). -/
def Zone.limitReached (x : Zone) (holdLimit : Nat) : Bool :=
  decide (x.state = .held) && x.holdReasons.counts && !x.trappedRaised && decide (0 < x.countsDue)
    && decide (holdLimit ≤ x.heldAfter x.countsDue)

/-- The record with that count taken and TRAPPED raised (R110). -/
def Zone.trapped (x : Zone) : Zone :=
  { x with heldFor := x.heldAfter x.countsDue, trappedRaised := true, countsDue := 0 }

/-- Every zone at a new uptime second (R110). -/
def State.countHeld (s : State) : State :=
  { s with zones := Table.zipWith (fun x c => Zone.count x c.holdLimit) s.zones s.settings.zones }

/-! ### Supply restart (R122) -/

/-- A zone record at the supply restart (R122). -/
def State.restartZone (s : State) (x : Zone) (c : ZoneSettings) : Zone :=
  match x.state with
  | .predischarge => { x with countdown := some (s.after c.predischarge) }
  | .releasing => { x.endPulse with confirmEnd := some (s.after c.confirmWindow) }
  | .normal | .isolated | .firstAlarm | .held | .discharged | .releaseFailed => x

/-- Every zone at the supply restart. -/
def State.restartZones (s : State) : State :=
  { s with zones := Table.zipWith s.restartZone s.zones s.settings.zones }

end Sys2Proof.Machine
end

