-- ==== Sys2Proof/Machine/Loops.lean ====
section
/-! DEFINITION. The loop controller: supervision (R83 to R85), the double look (R86), the hand-over of inputs (R87,
R129, R130), the presentation handshake (R88 to R92) and the meanings of POLL, GOOD_ANSWER, MISSED_ANSWER and
READ STATION. -/

namespace Sys2Proof.Machine

/-! ### Input codes (R82, 11 "Input code") -/

/-- The inputs of a door station. -/
structure DoorInputs where
  contact : Contact
  bolt : BoltReading
  rte : Bool
  panic : Bool
  tamper : Bool
deriving DecidableEq, Repr

/-- The bolt reading of the two sensors (R51). -/
def boltReading (thrown withdrawn : Bool) : BoltReading :=
  match thrown, withdrawn with
  | true, false => .thrown
  | false, true => .withdrawn
  | false, false => .between
  | true, true => .conflict

/-- The inputs that a door station's code carries. -/
def doorInputs (code : Byte) : DoorInputs where
  contact := if code.getLsbD 0 then .opened else .closed
  bolt := boltReading (code.getLsbD 1) (code.getLsbD 2)
  rte := code.getLsbD 3
  panic := code.getLsbD 4
  tamper := code.getLsbD 5

/-- The code is of a form listed for the role (R82). -/
def codeListed (role : Role) (code : Byte) : Bool :=
  match role with
  | .door _ => !code.getLsbD 6 && !code.getLsbD 7
  | .zone _ => (zoneInputs? code).isSome
  | .muster => decide (code = 0)
  | .unused => false

/-! ### Hand-over of inputs (R85, R87) -/

/-- The panic input of a station changed: PANIC is raised or its cause ends (R129). -/
def State.panicChange (s : State) (t : StationId) (role : Role) (active : Bool) : State :=
  if active then s.raise (keyPanic t role) none else s.endCause (keyPanic t role)

/-- The tamper input of a door station changed (R130). -/
def State.tamperChange (s : State) (t : StationId) (role : Role) (active : Bool) : State :=
  if active then s.raise (keyStationLost t role) none else s.endCause (keyStationLost t role)

/-- The contact and the bolt reading of a door station: a door in FAULT STATION_LOST is recomputed at the return of its
station, otherwise the changed fields are taken, contact first (R61, R85, R87). -/
def State.deliverDoorMotion (s : State) (d : DoorNo) (before : Option DoorInputs) (now : DoorInputs) (returned : Bool) :
    State :=
  if returned ∧ (s.door d).state = .fault .stationLost then s.recompute d now.contact now.bolt
  else
    let s1 := if before.map DoorInputs.contact = some now.contact then s else s.takeContact d now.contact
    if before.map DoorInputs.bolt = some now.bolt then s1 else s1.takeBolt d now.bolt

/-- The request-to-exit input became active: one press forms one ANONYMOUS_EXIT; active at the station's return it
forms none (R62, R85). -/
def State.deliverRte (s : State) (d : DoorNo) (before : Option DoorInputs) (now : DoorInputs) (returned : Bool) :
    State :=
  if !returned ∧ now.rte ∧ before.map DoorInputs.rte ≠ some true then (s.takeExit d []).1 else s

/-- The inputs of a door station are handed to their owners (R87). -/
def State.deliverDoor (s : State) (t : StationId) (d : DoorNo) (before : Option DoorInputs) (now : DoorInputs)
    (returned : Bool) : State :=
  let s1 := (s.deliverDoorMotion d before now returned).deliverRte d before now returned
  let s2 := if before.map DoorInputs.panic = some now.panic then s1 else s1.panicChange t (.door d) now.panic
  if before.map DoorInputs.tamper = some now.tamper then s2 else s2.tamperChange t (.door d) now.tamper

/-- The part of a zone station's inputs that the zone sequencer takes. -/
def ZoneInputs.zonePart (i : ZoneInputs) : ZoneInputs := { i with panic := false }

/-- The inputs of a zone station are handed to their owners, the zone's as one set (R85, R87, R98). -/
def State.deliverZone (s : State) (t : StationId) (z : Room) (before : Option ZoneInputs) (now : ZoneInputs)
    (returned : Bool) : State :=
  let s1 := if before.map ZoneInputs.zonePart = some now.zonePart ∧ !returned then s else s.takeZoneInputs z now
  if before.map ZoneInputs.panic = some now.panic then s1 else s1.panicChange t (.zone z) now.panic

/-- The return of a station ends the cause of its STATION_LOST alarm, unless its tamper input is active (R85, R130). -/
def State.stationReturned (s : State) (t : StationId) (role : Role) (code : Byte) : State :=
  match role with
  | .door d => if (doorInputs code).tamper then s else s.endCause (keyStationLost t (.door d))
  | .zone _ | .muster => s.endCause (keyStationLost t role)
  | .unused => s

/-- A validated code is handed to the owners of its fields (R85, R87). -/
def State.deliver (s : State) (t : StationId) (role : Role) (before : Option Byte) (code : Byte) (returned : Bool) :
    State :=
  let s1 := match role with
    | .door d => s.deliverDoor t d (before.map doorInputs) (doorInputs code) returned
    | .zone z =>
      match zoneInputs? code with
      | some i => s.deliverZone t z (before.bind zoneInputs?) i returned
      | none => s
    | .muster | .unused => s
  if returned then s1.stationReturned t role code else s1

/-! ### The presentation handshake (R89 to R92) -/

/-- The notes of a handshake that starts afresh. -/
def HandshakeNotes.clear : HandshakeNotes := ⟨false, false⟩

/-- The handshake moves to a step, its notes cleared. -/
def State.toHandshake (s : State) (t : StationId) (h : Handshake) : State :=
  (s.setStation t { s.station t with handshake := h }).setNote t .clear

/-- A presentation taken at IDLE or in WAITING is handed if the admission unit holds none of the loop, else it waits
(R89). -/
def State.offer (s : State) (t : StationId) (p : Presentation) : State :=
  s.toHandshake t (if (s.handedStation (loopOf t)).isNone then .handed p else .waiting p)

/-- A good answer without a presentation in WAITING or HANDED: the second in a row withdraws it (R91). -/
def State.blankAnswer (s : State) (t : StationId) : State :=
  if (s.note t).blankSeen then s.toHandshake t .idle else s.setNote t { s.note t with blankSeen := true }

/-- The handshake at a good answer, with the presentation it carries if it is taken (R89 to R91). -/
def State.handshakeAnswer (s : State) (t : StationId) (p : Option Presentation) : State :=
  match (s.station t).handshake, p with
  | .idle, none => s
  | .idle, some q => s.offer t q
  | .waiting _, some q => s.offer t q
  | .waiting _, none => s.blankAnswer t
  | .handed h, some q =>
    if q.mark = h.mark then s.setNote t { s.note t with blankSeen := false }
    else s.toHandshake t (.waiting q)
  | .handed _, none => s.blankAnswer t
  | .answering _ _, none => if (s.note t).ackSent then s.toHandshake t .idle else s
  | .answering _ _, some q => if (s.note t).ackSent then (s.toHandshake t .idle).offer t q else s

/-- Presentations are taken from PRESENT stations whose role is DOOR or MUSTER (R88). -/
def State.takenPresentation (s : State) (t : StationId) (p : Option Presentation) : Option Presentation :=
  if (s.station t).presence = .present then
    match (s.entry t).role with
    | .door _ | .muster => p
    | .zone _ | .unused => none
  else none

/-- The handshake at the loss of the station: WAITING is dropped, HANDED is withdrawn, ANSWERING stays (R92). -/
def State.handshakeLost (s : State) (t : StationId) : State :=
  match (s.station t).handshake with
  | .waiting _ | .handed _ => s.toHandshake t .idle
  | .idle | .answering _ _ => s

/-! ### Answers (R82 to R86) -/

/-- The record after a good answer: supervision and the double look (R83, R86). -/
def Station.afterGood (x : Station) (code : Byte) : Station :=
  { x with
    missed := 0
    presence := if x.candidate = some code then .present else x.presence
    inputs := if x.candidate = some code then some code else x.inputs
    candidate := some code }

/-- The slot is polled and has a class: its role is not UNUSED and it is in the poll cycle (R80, R82). -/
def State.supervised (s : State) (t : StationId) : Bool :=
  decide ((s.entry t).role ≠ .unused) && inCycle s.settings.stations t

/-- The owner of the station's role is told that it is LOST or serves it no more (R84, R79). The zone sequencer reads
the presence itself. -/
def State.ownerLost (s : State) (role : Role) : State :=
  match role with
  | .door d => s.enterFault d .stationLost
  | .zone _ | .muster | .unused => s

/-- A station becomes LOST (R84). -/
def State.becomeLost (s : State) (t : StationId) : State :=
  let role := (s.entry t).role
  (((s.setStation t { s.station t with presence := .lost }).ownerLost role).raise (keyStationLost t role)
    none).handshakeLost t

/-- A missed answer (R83, R91). -/
def State.missAnswer (s : State) (t : StationId) : State :=
  let x := s.station t
  let n := min (x.missed + 1) Config.missedMax
  let s1 := (s.setStation t { x with missed := n, candidate := none }).setNote t
    { s.note t with blankSeen := false }
  if x.presence ≠ .lost ∧ s.settings.missLimit ≤ n then s1.becomeLost t else s1

/-- A good answer (R82). A code of an unlisted form is a missed answer. -/
def State.takeAnswer (s : State) (t : StationId) (a : StationAnswer) : State :=
  let role := (s.entry t).role
  if codeListed role a.code then
    let x := s.station t
    let s1 := s.setStation t (x.afterGood a.code)
    let s2 := if x.candidate = some a.code then
        s1.deliver t role x.inputs a.code (decide (x.presence ≠ .present)) else s1
    s2.handshakeAnswer t (s2.takenPresentation t a.presentation)
  else s.missAnswer t

/-- GOOD_ANSWER (R82). -/
def execGoodAnswer (t : StationId) (a : StationAnswer) (s : State) : Host.Outcome State Fault Refusal :=
  .next (s.fieldEvent fun u => if u.supervised t then u.takeAnswer t a else u)

/-- MISSED_ANSWER (R83). Every cause is taken alike. -/
def execMissedAnswer (t : StationId) (_cause : MissCause) (s : State) : Host.Outcome State Fault Refusal :=
  .next (s.fieldEvent fun u => if u.supervised t then u.missAnswer t else u)

/-! ### Polls (R80, R81) -/

/-- The slot a loop polls now: the next in its cycle (R80). Where the last flag has moved in mid-cycle, the loop goes on
at the slot fixed at the previous poll, or at slot 0 if that slot is now beyond the cycle (the model's choice,
log 42). -/
def State.slotDue (s : State) (l : LoopNo) : Fin 16 :=
  let k := (s.loops.get l).nextSlot
  if k ≤ cycleEnd s.settings.stations l then k else 0

/-- The slot after one in the cycle (R80). -/
def State.slotAfter (s : State) (l : LoopNo) (k : Fin 16) : Fin 16 :=
  if k < cycleEnd s.settings.stations l then k + 1 else 0

/-- The handshake field of a station's poll (R89, R90). -/
def Handshake.pollField : Handshake → PollHandshake
  | .idle => .none
  | .waiting _ | .handed _ => .hold
  | .answering d m => .ack m d

/-- The poll of a station: its outputs and its handshake (R81). -/
def State.pollOf (s : State) (t : StationId) : Poll where
  slot := slotOf t
  output := s.stationOutput t
  handshake := (s.station t).handshake.pollField

/-- A loop sends the poll of the slot that is due; a poll with an ACK is noted (R80, R81, R90). -/
def State.sendPoll (s : State) (l : LoopNo) : State :=
  let k := s.slotDue l
  let t := address l k
  let s1 := { s with loops := s.loops.set l { nextSlot := s.slotAfter l k, lastPoll := some (s.pollOf t) } }
  match (s.station t).handshake with
  | .answering _ _ => s1.setNote t { s1.note t with ackSent := true }
  | .idle | .waiting _ | .handed _ => s1

/-- POLL (R81). It changes no record. -/
def execPoll (l : LoopNo) (s : State) : Host.Outcome State Fault Refusal :=
  .next (if s.fieldLive then s.sendPoll l else s)

/-! ### READ STATION (R95) -/

/-- The payload of READ STATION (11). -/
def State.stationPayload (s : State) (t : StationId) : List Byte :=
  let e := s.entry t
  let x := s.station t
  [byte e.role.code, optByte e.role.number, flag e.last, flag (inCycle s.settings.stations t), byte x.presence.code,
    byte x.missed, x.inputs.getD 0xFF, x.candidate.getD 0xFF, byte x.handshake.code, s.stationOutput t]

/-- READ STATION (R95). -/
def execReadStation (index : BitVec 16) (s : State) : Host.Outcome State Fault Refusal :=
  .next (s.report fun u => readRecord index u fun t v => .ok (v.stationPayload t))

end Sys2Proof.Machine
end

