-- ==== Sys2Proof/Machine/Admission.lean ====
section
/-! DEFINITION. The admission unit: the sixteen checks (R28 to R32), grants (R33, R36), pending pairs (R35, R37), the
decisions by station role and face (R27, R38 to R41), GRANT ENTRY (R42), and the meanings of PRESENTATION_DECIDED,
PAIR_WINDOW_END and GRANT_ENTRY. -/

namespace Sys2Proof.Machine

/-! ### Checks 2 to 6 (R28) -/

/-- The milliseconds of the wall clock since its minute began. A second is counted where the uptime passes a whole one
(R149). -/
def State.intoMinute (s : State) (w : WallClock) : Nat := 1000 * w.seconds + s.uptimeMs % 1000

/-- The minute that an expiry test reads where a minute boundary may be due. In the instant of the boundary a presentation
taken first reads the old minute (R149); once that instant has passed the wall clock is in the new minute, before its
sweep too (R16, R18; log 36). -/
def State.expiryMinute (s : State) (w : WallClock) : Nat := w.minute + (s.intoMinute w - 1) / 60000

/-- Check 3 (R16). -/
def State.checkExpiry (s : State) (m : Permit) : Option Reason :=
  match m.expiry, s.wall with
  | none, _ => none
  | some _, none => some .timeUnset
  | some e, some w => if e ≤ s.expiryMinute w then some .expired else none

/-- The first failure among alternatives. -/
def firstReason : List (Option Reason) → Option Reason
  | [] => none
  | some r :: _ => some r
  | none :: rest => firstReason rest

/-- A check that passes when its condition holds. -/
def check (passes : Bool) (r : Reason) : Option Reason := if passes then none else some r

/-- Checks 2 to 6 of outer entry for a permit at a strongroom (R28). -/
def State.checks2to6 (s : State) (m : Permit) (r : Room) : Option Reason :=
  firstReason [
    check (decide (m.state = .active)) .suspended,
    s.checkExpiry m,
    check (decide (m.uses ≠ some 0)) .usedUp,
    check (m.rooms.getLsbD r.val) .notPermitted,
    check (decide (s.decision = .day) || (decide (m.hours = .anyHours) && m.pin.isSome)) .hours]

/-! ### Check 7: the PIN (R14, R15) -/

inductive PinOutcome where
  | pass | duress | wrong | missing
deriving DecidableEq, Repr

/-- The duress PIN: the last digit raised by one, 9 wrapping to 0 (R14). -/
def duressPin (pin : Nat) : Nat := pin / 10 * 10 + (pin % 10 + 1) % 10

/-- The presented PIN compared with the stored one (R14). A number of 10 000 to 65 535 fits no row of R14's table, and
R82 does not make its answer missed; it is WRONG, and counted at outer entry (the model's choice, log 41). -/
def comparePin (pin : Nat) (presented : Option (BitVec 16)) : PinOutcome :=
  match presented with
  | none => .missing
  | some v => if v.toNat = pin then .pass else if v.toNat = duressPin pin then .duress else .wrong

/-- Check 7 for a permit: none if no PIN is asked (R14). -/
def Permit.pinOutcome (m : Permit) (presented : Option (BitVec 16)) : Option PinOutcome :=
  m.pin.map fun pin => comparePin pin presented

/-- The permit after check 7 (R15). -/
def Permit.afterPin (m : Permit) : PinOutcome → Permit
  | .pass | .duress => { m with pinFailures := 0 }
  | .missing => m
  | .wrong =>
    if m.pinFailures + 1 < Config.pinLimit then { m with pinFailures := m.pinFailures + 1 }
    else { m with
      pinFailures := Config.pinLimit
      state := if m.state = .retiring then .retiring else .suspended }

/-- The reason of a PIN outcome that denies (R15). -/
def Permit.pinReason (m : Permit) : Option PinOutcome → Option Reason
  | none | some .pass | some .duress => none
  | some .missing => some .pinWrong
  | some .wrong => if m.pinFailures + 1 < Config.pinLimit then some .pinWrong else some .pinLocked

/-! ### Checks 8 to 15 (R29 to R31) -/

/-- The door's effective mode is NORMAL and it is not in FAULT (R29, R38). -/
def Door.admits (x : Door) : Bool :=
  decide (x.effMode = .normal) && (match x.state with
    | .fault _ => false
    | .secured | .unbolting | .released | .opened | .closedWait | .bolting => true)

/-- The door has no outstanding grant and no pending exit (R30, R38). -/
def Door.free (x : Door) : Bool := x.grant.isNone && x.pendingExit.isNone

/-- The permit is held as the pending pair of some outer door (R30). -/
def State.pairHolds (s : State) (p : PermitIx) : Bool :=
  s.pairs.any fun x => x.any fun q => decide (q.permit = p)

/-- The two-person rule applies at the outer door of a strongroom (R32). -/
def State.twoPersonApplies (s : State) (r : Room) : Bool :=
  (s.zoneSettings r).twoPerson && decide (s.decision = .afterHours) && !s.escorted r

/-- The number of people the decision would admit: two if it completes a pending pair (R30). -/
def entering (completesPair : Bool) : Nat := if completesPair then 2 else 1

/-- The escort rule, with the held permit of a pair that would be completed (R31). -/
def State.escortPasses (s : State) (m : Permit) (r : Room) (held : Option PermitIx) : Bool :=
  decide (m.cls ≠ .visitor) || s.escorted r
    || held.any fun p => (s.permit p).any fun h => decide (h.cls ≠ .visitor)

/-- Checks 8 to 15 of outer entry at the outer door of a strongroom. `held` is the held permit of the pending pair that
the presentation would complete (R29 to R31). -/
def State.checks8to15 (s : State) (p : PermitIx) (m : Permit) (r : Room) (held : Option PermitIx) : Option Reason :=
  let n := entering held.isSome
  firstReason [
    check (s.zone r).state.admits .zoneAlarm,
    check (s.door (outerDoor r)).admits .doorMode,
    check (m.occupant.isNone && !s.pairHolds p) .alreadyInside,
    check (decide (s.roomCount r + n ≤ (s.zoneSettings r).occupancyLimit)) .roomFull,
    check (decide (n ≤ s.freeSlots.length)) .rosterFull,
    check (s.door (outerDoor r)).free .doorBusy,
    check (s.secured (innerDoor r)) .interlock,
    check (s.escortPasses m r held) .escortNeeded]

/-! ### Pending pairs (R35, R37) -/

/-- The held permit still passes checks 2 to 6 and the rule still applies (R37). -/
def State.pairStands (s : State) (r : Room) (q : PendingPair) : Bool :=
  s.twoPersonApplies r && (s.permit q.permit).any fun m => (s.checks2to6 m r).isNone

/-- The revalidation of a pending pair at the start of a decision at its door (R37). -/
def State.revalidatePair (s : State) (r : Room) : State :=
  { s with pairs := s.pairs.modify r fun x => x.filter fun q => s.pairStands r q }

/-- PAIR_WINDOW_END: the uptime reaches the window deadline and the pending pair is dropped (R37). -/
def execPairWindowEnd (r : Room) (s : State) : Host.Outcome State Fault Refusal :=
  .next (s.event fun u => if u.reached ((u.pair r).map PendingPair.deadline) then u.setPair r none else u)

/-! ### Grants (R33, R36) -/

/-- An entry grant that names the slots. -/
def entryGrant (kind : GrantKind) (slots : List Slot) : Grant := ⟨kind, slots, none⟩

/-- A permit is granted alone: record, link, use and grant (R33). -/
def State.grantAlone (s : State) (r : Room) (p : PermitIx) (duress : Bool) (kind : GrantKind) (o : Slot) : State :=
  (s.createRecord o r p duress none).beginGrant (outerDoor r) (entryGrant kind [o])

/-- A pair is granted: the held holder takes the lower slot and stands first (R36). -/
def State.grantPair (s : State) (r : Room) (q : PendingPair) (p : PermitIx) (duress : Bool) (o1 o2 : Slot) : State :=
  ((((s.createRecord o1 r q.permit q.duress (some o2)).createRecord o2 r p duress (some o1)).setPair r
    none).beginGrant (outerDoor r) (entryGrant .entry [o1, o2]))

/-! ### Outer entry (R28 to R36) -/

/-- A DENY to an entry presentation is written into the door's last denial (R27). -/
def State.denied (s : State) (d : DoorNo) (c : Credential) (r : Reason) : State × Decision :=
  (s.modDoor d fun x => { x with lastDenial := some ⟨r, c⟩ }, .deny r)

/-- Check 16 and the grant (R32, R33, R35, R36). The free slots suffice by check 12. -/
def State.admitOuter (s : State) (r : Room) (p : PermitIx) (duress : Bool) : State × Decision :=
  match s.twoPersonApplies r, s.pair r, s.freeSlots with
  | false, _, o :: _ => (s.grantAlone r p duress .entry o, .grant)
  | true, some q, o1 :: o2 :: _ => (s.grantPair r q p duress o1 o2, .grant)
  | true, none, _ => (s.setPair r (some ⟨p, duress, s.after s.settings.pairWindow⟩), .wait)
  | _, _, _ => s.denied (outerDoor r) 0 .rosterFull

/-- Checks 8 to 16 of a presentation whose PIN passed; a DURESS outcome raises the alarm first (R34). -/
def State.decideAfterPin (s : State) (r : Room) (p : PermitIx) (m : Permit) (c : Credential) (duress : Bool) :
    State × Decision :=
  let s1 := if duress then s.raise (keyDuress r (outerDoor r) none) (some p) else s
  match s1.checks8to15 p m r ((s1.pair r).map PendingPair.permit) with
  | some reason => s1.denied (outerDoor r) c reason
  | none => s1.admitOuter r p duress

/-- Check 7 and what follows it (R14, R15, R28). -/
def State.decidePin (s : State) (r : Room) (p : PermitIx) (m : Permit) (q : Presentation) : State × Decision :=
  let out := m.pinOutcome q.pin
  let m1 := match out with
    | none => m
    | some x => m.afterPin x
  let s1 := s.setPermit p (some m1)
  match m.pinReason out with
  | some reason => s1.denied (outerDoor r) q.credential reason
  | none => s1.decideAfterPin r p m1 q.credential (decide (out = some .duress))

/-- An outer entry presentation (R28). -/
def State.decideOuter (s0 : State) (r : Room) (q : Presentation) : State × Decision :=
  let s := s0.revalidatePair r
  match (s.lookup q.credential).bind fun p => (s.permit p).map fun m => (p, m) with
  | none => s.denied (outerDoor r) q.credential .unknown
  | some (p, m) =>
    if (s.pair r).map PendingPair.permit = some p then (s, .wait)
    else match s.checks2to6 m r with
      | some reason => s.denied (outerDoor r) q.credential reason
      | none => s.decidePin r p m q

/-! ### Inner entry (R38) -/

/-- The slot of the permit's record. -/
def State.slotOfCredential (s : State) (c : Credential) : Option Slot :=
  (s.lookup c).bind fun p => (s.permit p).bind Permit.occupant

/-- The slot of the permit's record, if it is a record of the strongroom in one of the phases. -/
def State.slotIn (s : State) (c : Credential) (r : Room) (phases : List Phase) : Option Slot :=
  (s.slotOfCredential c).filter fun o => (s.occupant o).any fun x => decide (x.room = r) && decide (x.phase ∈ phases)

/-- The slots an INNER_ENTRY grant names: the holder's, and the partner's if it is in VESTIBULE (R38). -/
def State.innerSlots (s : State) (o : Slot) : List Slot :=
  match (s.occupant o).bind Occupant.partner with
  | none => [o]
  | some q => if (s.occupant q).any fun x => decide (x.phase = .vestibule) then [o, q] else [o]

/-- Checks 3 to 6 of inner entry (R38). -/
def State.innerChecks (s : State) (r : Room) : Option Reason :=
  firstReason [
    check (s.zone r).state.admits .zoneAlarm,
    check (s.door (innerDoor r)).admits .doorMode,
    check (s.door (innerDoor r)).free .doorBusy,
    check (s.secured (outerDoor r)) .interlock]

/-- An inner entry presentation (R38). -/
def State.decideInner (s : State) (r : Room) (q : Presentation) : State × Decision :=
  if (s.lookup q.credential).isNone then s.denied (innerDoor r) q.credential .unknown
  else match s.slotIn q.credential r [.vestibule] with
    | none => s.denied (innerDoor r) q.credential .notInVestibule
    | some o =>
      match s.innerChecks r with
      | some reason => s.denied (innerDoor r) q.credential reason
      | none => (s.beginGrant (innerDoor r) (entryGrant .innerEntry (s.innerSlots o)), .grant)

/-! ### Exit (R39) -/

/-- The phases whose record an exit at the door names (R39). -/
def exitPhases (d : DoorNo) : List Phase := if isOuter d then [.vestibule, .leaving] else [.inside]

/-- An exit presentation is never refused (R39). -/
def State.decideExit (s : State) (d : DoorNo) (q : Presentation) : State × Decision :=
  ((s.takeExit d (s.slotIn q.credential (roomOf d) (exitPhases d)).toList).1, .grant)

/-! ### Check-in (R40) -/

/-- The check-in carries the duress PIN (R40). -/
def State.checkInDuress (s : State) (q : Presentation) : Bool :=
  ((s.lookup q.credential).bind s.permit).any fun m => decide (m.pinOutcome q.pin = some .duress)

/-- The record's duress flag is set and DURESS is raised, naming the inner door, the slot and the permit (R40). -/
def State.raiseCheckInDuress (s : State) (r : Room) (o : Slot) : State :=
  match s.occupant o with
  | none => s
  | some x =>
    (s.setOccupant o (some { x with duress := true })).raise (keyDuress r (innerDoor r) (some o)) (some x.permit)

/-- A check-in presentation (R40). -/
def State.decideCheckIn (s : State) (r : Room) (q : Presentation) : State × Decision :=
  match s.slotIn q.credential r [.inside] with
  | none => (s, .deny .notOnRoster)
  | some o =>
    let s1 := if s.checkInDuress q then s.raiseCheckInDuress r o else s
    (s1.takeCheckIn o, .grant)

/-! ### Muster (R41) -/

/-- A muster presentation retires the holder's record (R41). -/
def State.decideMuster (s : State) (q : Presentation) : State × Decision :=
  match s.slotOfCredential q.credential with
  | none => (s, .deny .notOnRoster)
  | some o => (s.leaveRoster o, .grant)

/-! ### The decision (R27) -/

/-- A presentation is decided by the role of its station and its face (R27). -/
def State.decidePresentation (s : State) (role : Role) (q : Presentation) : State × Decision :=
  match role with
  | .door d =>
    match q.face, isOuter d with
    | .entry, true => s.decideOuter (roomOf d) q
    | .entry, false => s.decideInner (roomOf d) q
    | .exit, _ => s.decideExit d q
    | .checkIn, false => s.decideCheckIn (roomOf d) q
    | .checkIn, true => (s, .deny .notOnRoster)
  | .muster => s.decideMuster q
  | .zone _ | .unused => (s, .deny .notOnRoster)

/-- The admission unit decides the presentation it holds of a loop; its station goes to ANSWERING with the decision and
the presentation's mark (R27, R89). -/
def State.decideLoop (s : State) (l : LoopNo) : State :=
  match s.handedStation l with
  | none => s
  | some t =>
    match (s.station t).handshake with
    | .handed q =>
      let r := s.decidePresentation (s.entry t).role q
      r.1.toHandshake t (.answering r.2 q.mark)
    | .idle | .waiting _ | .answering _ _ => s

/-- PRESENTATION_DECIDED (R27). -/
def execPresentationDecided (l : LoopNo) (s : State) : Host.Outcome State Fault Refusal :=
  .next (s.event fun u => u.decideLoop l)

/-! ### GRANT ENTRY (R42) -/

/-- The refusal of a check of GRANT ENTRY: FULL for no free slot, REFUSED with the reason otherwise (R42). -/
def grantRefusal (reason : Reason) : Answer :=
  if reason = .rosterFull then ⟨.full, []⟩ else .refusedFor reason

/-- The checks of GRANT ENTRY after the revalidation (R42). -/
def State.grantChecks (s : State) (p : PermitIx) (m : Permit) (r : Room) : Option Reason :=
  firstReason [s.checks2to6 m r, s.checks8to15 p m r none, check (!s.twoPersonApplies r) .pairNeeded]

/-- GRANT ENTRY for a present permit at an outer door (R42). -/
def State.grantEntryFor (s0 : State) (r : Room) (p : PermitIx) (m : Permit) : Answer × State :=
  let s := s0.revalidatePair r
  match s.grantChecks p m r, s.freeSlots with
  | some reason, _ => (grantRefusal reason, s)
  | none, o :: _ => (.ok [byte o.val], s.grantAlone r p false .remoteEntry o)
  | none, [] => (⟨.full, []⟩, s)

/-- GRANT ENTRY (R42): the door and permit numbers are checked first, then the permit's position. -/
def State.grantEntry (s : State) (door permit : BitVec 16) : Answer × State :=
  match named? 32 door, named? 512 permit with
  | some d, some p =>
    if isOuter d then
      match s.permit p with
      | none => (⟨.notFound, []⟩, s)
      | some m => s.grantEntryFor (roomOf d) p m
    else (⟨.badValue, []⟩, s)
  | _, _ => (⟨.badValue, []⟩, s)

/-- GRANT ENTRY (R42). -/
def execGrantEntry (index permit : BitVec 16) (s : State) : Host.Outcome State Fault Refusal :=
  .next (s.serve fun u => u.grantEntry index permit)

end Sys2Proof.Machine
end

