-- ==== Sys2Proof/Machine/Alarms.lean ====
section
/-! DEFINITION. The host's requests on alarms (R131 to R133) and the deadlines of the lone-worker watch
(R138, R139). -/

namespace Sys2Proof.Machine

/-! ### READ ALARM (R133) -/

/-- The state byte: RAISED 0, ACKNOWLEDGED 1 (11). -/
def Alarm.stateCode (a : Alarm) : Nat := if a.acknowledged then 1 else 0

/-- Cause present; FFh for DURESS (11). -/
def Alarm.causeByte (a : Alarm) : Byte := optByte (a.cause.map Bool.toNat)

/-- The payload of READ ALARM (R133, 11). An absent strongroom is sent as FFh (the model's choice, log 43). -/
def Alarm.payload (a : Alarm) : List Byte :=
  [byte a.key.kind.code, byte a.key.kind.severity, optByte (a.key.room.map Fin.val), optByte (a.key.door.map Fin.val),
    optByte (a.key.occupant.map Fin.val)]
    ++ num2 ((a.permit.map Fin.val).getD 0xFFFF)
    ++ [optByte (a.key.station.map Fin.val), byte a.stateCode, a.causeByte] ++ num4 a.firstRaised ++ [byte a.repeats]

/-- READ ALARM for a slot (R133). -/
def State.alarmAnswer (i : AlarmSlot) (s : State) : Answer :=
  match s.alarm i with
  | none => ⟨.notFound, []⟩
  | some a => .ok a.payload

/-- READ ALARM (R133). -/
def execReadAlarm (index : BitVec 16) (s : State) : Host.Outcome State Fault Refusal :=
  .next (s.report fun u => readRecord index u State.alarmAnswer)

/-! ### ACKNOWLEDGE ALARM (R131) -/

/-- ACKNOWLEDGE ALARM for a slot (R131). In LOW it is refused (R144, log 16). -/
def State.acknowledgeAt (i : AlarmSlot) (s : State) : Answer × State :=
  if s.inLow then (.refusedFor .wrongState, s)
  else
    match s.alarm i with
    | none => (⟨.notFound, []⟩, s)
    | some a => (.ok, s.setAlarm i (some { a with acknowledged := true }))

/-- ACKNOWLEDGE ALARM (R131). -/
def execAcknowledgeAlarm (index : BitVec 16) (s : State) : Host.Outcome State Fault Refusal :=
  .next (s.serve fun u => onRecord index u State.acknowledgeAt)

/-! ### CLEAR ALARM (R132) -/

/-- The overflow condition clears, and the catch-up raises are taken (R132, R139). -/
def State.clearOverflow (s : State) : State :=
  if s.overflow then { s with overflow := false }.catchUps else s

/-- The record is removed (R132). -/
def State.removeAlarm (s : State) (i : AlarmSlot) (a : Alarm) : State :=
  ((s.setAlarm i none).alarmRemoved a).clearOverflow

/-- CLEAR ALARM for a slot (R132). In LOW it is refused (R144, log 16). -/
def State.clearAlarmAt (i : AlarmSlot) (s : State) : Answer × State :=
  if s.inLow then (.refusedFor .wrongState, s)
  else
    match s.alarm i with
    | none => (⟨.notFound, []⟩, s)
    | some a =>
      if a.replaceable then (.ok, s.removeAlarm i a) else (.refusedFor .wrongState, s)

/-- CLEAR ALARM (R132). -/
def execClearAlarm (index : BitVec 16) (s : State) : Host.Outcome State Fault Refusal :=
  .next (s.serve fun u => onRecord index u State.clearAlarmAt)

/-! ### CLEAR LOST COUNT (R133) -/

/-- CLEAR LOST COUNT (R133). -/
def execClearLostCount (s : State) : Host.Outcome State Fault Refusal :=
  .next (s.serve fun u => (.ok, { u with lostCount := 0 }))

/-! ### Watch deadlines (R138, R139) -/

/-- A watch moved on from the instant of its deadline (R138, R148). -/
def State.nextStage (s : State) (st : WatchStage) (deadline grace : Nat) : Watch where
  stage := st
  deadline := some (deadline + 1000 * grace)
  setAt := s.uptimeMs

/-- A watch whose deadline has been reached advances (R138). -/
def State.advanceWatch (s : State) (o : Slot) (st : WatchStage) (deadline : Nat) : State :=
  match st with
  | .zero => s.setWatch o (some (s.nextStage .one deadline s.settings.grace1))
  | .one => s.setWatch o (some (s.nextStage .two deadline s.settings.grace2))
  | .two => s.raiseLoneWorker o (s.uptimeMs + Config.loneWorkerRepeatMs)
  | .three => s

/-- The deadline of a watch, if it has been reached, with its stage. -/
def State.watchDue (s : State) (o : Slot) : Option (WatchStage × Nat) :=
  match s.watch o with
  | none => none
  | some w => (w.deadline.filter fun t => decide (t ≤ s.uptimeMs)).map fun t => (w.stage, t)

/-- WATCH_DEADLINE (R138). -/
def execWatchDeadline (o : Slot) (s : State) : Host.Outcome State Fault Refusal :=
  .next (s.fieldEvent fun u =>
    match u.watchDue o with
    | some (st, t) => u.advanceWatch o st t
    | none => u)

/-- LONE_WORKER_REPEAT (R139): the raise is made again; lost again, the deadline moves on by 60 s. -/
def execLoneWorkerRepeat (o : Slot) (s : State) : Host.Outcome State Fault Refusal :=
  .next (s.fieldEvent fun u =>
    match u.watchDue o with
    | some (.three, t) => u.raiseLoneWorker o (t + Config.loneWorkerRepeatMs)
    | _ => u)

end Sys2Proof.Machine
end

