-- ==== Sys2Proof/Machine/Permits.lean ====
section
/-! DEFINITION. The permit table's requests: FIND PERMIT, READ PERMIT, WRITE PERMIT, AMEND PERMIT, RETIRE PERMIT
(R6 to R12), and the expiry sweep (R17). Every one is taken at OPERATOR level. -/

namespace Sys2Proof

namespace Machine

/-! ### FIND PERMIT (R6) and READ PERMIT (R7) -/

/-- The answer to FIND PERMIT for a permit that is found (11). -/
def Permit.foundPayload (p : PermitIx) (x : Permit) : List Byte :=
  num2 p.val ++ [byte x.state.code, flag x.occupant.isSome]

/-- FIND PERMIT (R6). A credential number of three bytes is never above 16 777 215. -/
def State.findPermit (s : State) (c : Credential) : Answer :=
  if c = 0 then ⟨.badValue, []⟩
  else
    match (s.lookup c).bind fun p => (s.permit p).map fun x => (p, x) with
    | none => ⟨.notFound, []⟩
    | some (p, x) => .ok (x.foundPayload p)

/-- FIND PERMIT (R6). -/
def execFindPermit (credential : Credential) (s : State) : Host.Outcome State Fault Refusal :=
  .next (s.report fun u => u.findPermit credential)

/-- The flag byte of a permit record (11). -/
def Permit.flags (x : Permit) : Nat :=
  bit 0 x.pin.isSome + bit 1 x.expiry.isSome + bit 2 x.uses.isSome + bit 3 x.watchAlways

/-- The payload of READ PERMIT: the permit record with the pin's value kept back, then pin_failures and the occupant
slot (R7, 11). -/
def Permit.payload (x : Permit) : List Byte :=
  num3 x.credential.toNat ++ num2 x.holder.toNat ++ num2 x.rooms.toNat
    ++ [byte x.cls.code, byte x.hours.code, byte x.state.code, byte x.flags]
    ++ num2 0 ++ num3 (x.expiry.getD 0) ++ [byte (x.uses.getD 0), byte x.pinFailures, optByte (x.occupant.map Fin.val)]

/-- The answer to READ PERMIT for a position. -/
def State.permitAnswer (p : PermitIx) (s : State) : Answer :=
  match s.permit p with
  | none => ⟨.notFound, []⟩
  | some x => .ok x.payload

/-- READ PERMIT (R7). -/
def execReadPermit (index : BitVec 16) (s : State) : Host.Outcome State Fault Refusal :=
  .next (s.report fun u => readRecord index u State.permitAnswer)

/-! ### WRITE PERMIT (R8, R9) -/

end Machine

open Machine

/-- The written pin: present by bit 0 of the flag byte. -/
def PermitFields.pin? (f : PermitFields) : Option Nat := if f.flags.getLsbD 0 then some f.pin.toNat else none

/-- The written expiry: present by bit 1. -/
def PermitFields.expiry? (f : PermitFields) : Option Nat := if f.flags.getLsbD 1 then some f.expiry.toNat else none

/-- The written uses: present by bit 2. -/
def PermitFields.uses? (f : PermitFields) : Option Nat := if f.flags.getLsbD 2 then some f.uses.toNat else none

/-- The fields of a WRITE PERMIT lie in their ranges (R8 check 1). -/
def PermitFields.inRange (f : PermitFields) : Bool :=
  decide (f.credential ≠ 0) && decide (f.rooms ≠ 0) && decide (f.flags.toNat < 16)
    && decide (f.pin?.getD 0 ≤ Config.pinMax) && decide (f.uses? ≠ some 0)

/-- The permit that a WRITE PERMIT places; none if a value is out of its range (R8 check 1, R9). -/
def PermitFields.permit? (f : PermitFields) : Option Permit :=
  if f.inRange then
    match permitClass? f.cls, permitHours? f.hours, writtenState? f.state with
    | some c, some h, some st =>
      some
        { credential := f.credential
          holder := f.holder
          rooms := f.rooms
          cls := c
          hours := h
          pin := f.pin?
          state := st
          expiry := f.expiry?
          uses := f.uses?
          watchAlways := f.flags.getLsbD 3
          pinFailures := 0
          occupant := none }
    | _, _, _ => none
  else none

namespace Machine

/-- The position holds a linked permit (R8 check 2). -/
def State.linkedAt (s : State) (p : PermitIx) : Bool := (s.permit p).any fun x => x.occupant.isSome

/-- A present permit at another position carries the credential (R8 check 3). -/
def State.duplicates (s : State) (p : PermitIx) (c : Credential) : Bool := ((s.setPermit p none).lookup c).isSome

/-- WRITE PERMIT at a position (R8, R9). A pending pair of the old permit is dropped. A permit written is marked, even
where it equals the one it replaces (R169). -/
def State.writePermitAt (f : PermitFields) (p : PermitIx) (s : State) : Answer × State :=
  match f.permit? with
  | none => (⟨.badValue, []⟩, s)
  | some x =>
    if s.linkedAt p then (.refusedFor .inUse, s)
    else if s.duplicates p x.credential then (.refusedFor .duplicate, s)
    else (.ok, ((s.setPermit p (some x)).dropPairsOf p).mark (.permit p))

/-- WRITE PERMIT (R8, R9). -/
def execWritePermit (index : BitVec 16) (fields : PermitFields) (s : State) : Host.Outcome State Fault Refusal :=
  .next (s.serve fun u => onRecord index u (State.writePermitAt fields))

/-! ### AMEND PERMIT (R10, R11) -/

/-- A replacement: keep the field, make it absent, or give it a value. -/
inductive Replacement where
  | keep
  | absent
  | value (v : Nat)
deriving DecidableEq, Repr

/-- The replacement a selector and a value make (11). The value is read only with selector 02h. -/
def replacement? (selector : Byte) (value low high : Nat) : Option Replacement :=
  match selector.toNat with
  | 0 => some .keep
  | 1 => some .absent
  | 2 => if low ≤ value ∧ value ≤ high then some (.value value) else none
  | _ => none

/-- A field under a replacement (R11). -/
def Replacement.apply (old : Option Nat) : Replacement → Option Nat
  | .keep => old
  | .absent => none
  | .value v => some v

/-- An amend flag, by its bit (11): SUSPEND 0, ANY_HOURS 1, WATCH_ALWAYS 2. -/
def amendFlag (setMask clearMask : Byte) (n : Nat) (old : Bool) : Bool :=
  setMask.getLsbD n || (old && !clearMask.getLsbD n)

end Machine

open Machine

/-- The strongroom set after the amend (R11). -/
def AmendFields.rooms (a : AmendFields) (old : BitVec 16) : BitVec 16 := (old ||| a.roomSet) &&& ~~~a.roomClear

/-- The masks of an AMEND PERMIT are consistent and leave a strongroom (R10 check 3). -/
def AmendFields.masksGood (a : AmendFields) (x : Permit) : Bool :=
  decide (a.flagSet &&& a.flagClear = 0) && decide (a.roomSet &&& a.roomClear = 0)
    && decide ((a.flagSet ||| a.flagClear).toNat < 8) && decide (a.rooms x.rooms ≠ 0)

/-- SUSPEND is in either flag mask. -/
def AmendFields.namesSuspend (a : AmendFields) : Bool := a.flagSet.getLsbD 0 || a.flagClear.getLsbD 0

/-- The permit's state after the amend (R11). -/
def AmendFields.state (a : AmendFields) (old : PermitState) : PermitState :=
  match old with
  | .retiring => .retiring
  | .active | .suspended =>
    if a.flagSet.getLsbD 0 then .suspended else if a.flagClear.getLsbD 0 then .active else old

/-- The permit after the amend (R11). -/
def AmendFields.apply (a : AmendFields) (x : Permit) (uses expiry pin : Replacement) : Permit :=
  { x with
    state := a.state x.state
    hours := if amendFlag a.flagSet a.flagClear 1 (decide (x.hours = .anyHours)) then .anyHours else .dayOnly
    watchAlways := amendFlag a.flagSet a.flagClear 2 x.watchAlways
    rooms := a.rooms x.rooms
    uses := uses.apply x.uses
    expiry := expiry.apply x.expiry
    pin := pin.apply x.pin
    pinFailures := if a.flagClear.getLsbD 0 ∨ pin ≠ .keep then 0 else x.pinFailures }

/-- The amended permit; none if a value or a mask is refused (R10 check 3). -/
def AmendFields.amended? (a : AmendFields) (x : Permit) : Option Permit :=
  if a.masksGood x then
    match replacement? a.usesSel a.uses.toNat 1 255, replacement? a.expirySel a.expiry.toNat 0 Config.minuteMax,
      replacement? a.pinSel a.pin.toNat 0 Config.pinMax with
    | some u, some e, some p => some (a.apply x u e p)
    | _, _, _ => none
  else none

namespace Machine

/-- AMEND PERMIT at a position (R10, R11). -/
def State.amendPermitAt (a : AmendFields) (p : PermitIx) (s : State) : Answer × State :=
  match s.permit p with
  | none => (⟨.notFound, []⟩, s)
  | some x =>
    match a.amended? x with
    | none => (⟨.badValue, []⟩, s)
    | some y =>
      if x.state = .retiring ∧ a.namesSuspend then (.refusedFor .wrongState, s)
      else (.ok, s.setPermit p (some y))

/-- AMEND PERMIT (R10, R11). -/
def execAmendPermit (index : BitVec 16) (fields : AmendFields) (s : State) : Host.Outcome State Fault Refusal :=
  .next (s.serve fun u => onRecord index u (State.amendPermitAt fields))

/-! ### RETIRE PERMIT (R12) -/

/-- The permit leaves the table if it is unlinked, and retires if it is linked (R12, R17). -/
def State.retireOrRemove (s : State) (p : PermitIx) (x : Permit) : State :=
  if x.occupant.isNone then s.removePermit p else s.setPermit p (some { x with state := .retiring })

/-- RETIRE PERMIT at a position (R12). -/
def State.retirePermitAt (p : PermitIx) (s : State) : Answer × State :=
  match s.permit p with
  | none => (⟨.notFound, []⟩, s)
  | some x => (.ok, if x.state = .retiring then s else s.retireOrRemove p x)

/-- RETIRE PERMIT (R12). -/
def execRetirePermit (index : BitVec 16) (s : State) : Host.Outcome State Fault Refusal :=
  .next (s.serve fun u => onRecord index u State.retirePermitAt)

/-! ### The expiry sweep (R17) -/

/-- What the sweep makes of a permit. -/
def State.swept (s : State) (x : Permit) : Option Permit :=
  if s.expired x ∧ x.state ≠ .retiring then
    if x.occupant.isNone then none else some { x with state := .retiring }
  else some x

/-- The expiry sweep at a wall-minute boundary (R17). Pending pairs of removed permits are dropped (R5). While the wall
clock is invalid no permit is expired. -/
def State.sweep (s : State) : State :=
  let t := { s with permits := s.permits.map fun (x : Option Permit) => x.bind s.swept }
  { t with pairs := t.pairs.map fun (x : Option PendingPair) => x.filter fun q => (t.permit q.permit).isSome }

end Machine

end Sys2Proof
end

