-- ==== Sys2Proof/Machine/Clock.lean ====
section
/-! DEFINITION. The clock unit: uptime (R147), the wall clock and its minute boundary (R149, R150), the hours windows
and the decision (R152, R153, R155), and reference supervision (R157). -/

namespace Sys2Proof.Machine

/-! ### Derived wall-clock values (R149) -/

/-- The second, 0 to 59. It stays at 59 until the minute boundary is taken (R149, log 4). -/
def WallClock.second (w : WallClock) : Nat := min w.seconds 59

/-- Minute-of-week (R149). -/
def WallClock.minuteOfWeek (w : WallClock) : Nat := w.minute % 10080

/-- Weekday, 0 for Monday (R149). -/
def WallClock.weekday (w : WallClock) : Nat := w.minuteOfWeek / 1440

/-- Minute-of-day (R149). -/
def WallClock.minuteOfDay (w : WallClock) : Nat := w.minuteOfWeek % 1440

/-- The window holds the wall minute (R152). -/
def HoursWindow.holds (x : HoursWindow) (w : WallClock) : Bool :=
  x.weekdays.getLsbD w.weekday && decide (x.start ≤ w.minuteOfDay) && decide (w.minuteOfDay < x.stop)

/-- A window number's window holds the present minute; while the wall clock is invalid, none does (R153). -/
def State.windowHolds (s : State) (n : WindowNo) : Bool :=
  match s.settings.windows.get n, s.wall with
  | some x, some w => x.holds w
  | _, _ => false

/-- DAY or AFTER_HOURS from the wall clock and the windows (R155). -/
def State.hoursNow (s : State) : HoursDecision :=
  match s.wall with
  | none => .afterHours
  | some w => if s.settings.windows.any fun x => x.any fun y => y.holds w then .day else .afterHours

/-- The decision is made afresh (R155). -/
def State.decideHours (s : State) : State := { s with decision := s.hoursNow }

/-! ### UPTIME_SECOND (R147) -/

/-- One second of the valid wall clock (R149). -/
def WallClock.tick (w : WallClock) : WallClock := { w with seconds := w.seconds + 1 }

/-- The uptime counter at the next whole second (R147). -/
def State.nextSecond (s : State) : Nat := 1000 * (s.uptimeSec + 1)

/-- A new uptime second: the wall clock counts, and held_for counts while the supply is NORMAL (R97, R122, R147). -/
def State.newSecond (s : State) : State :=
  let t := { s with uptimeMs := s.nextSecond, wall := s.wall.map WallClock.tick }
  if t.inLow then t else t.countHeld

/-- UPTIME_SECOND (R147). The counter stops at its last second. -/
def execUptimeSecond (s : State) : Host.Outcome State Fault Refusal :=
  .next (s.event fun u => if u.uptimeSec < Config.uptimeSecMax then u.newSecond else u)

/-! ### MINUTE_BOUNDARY (R149) -/

/-- The wall clock in its next minute, which began 60 seconds after the last (R149). -/
def WallClock.nextMinute (w : WallClock) : WallClock where
  minute := w.minute + 1
  seconds := w.seconds - 60

/-- A minute boundary of a valid wall clock, in one event: the next minute, its sweep and its decision, or, at the end of
the range, the clock invalid (R149). -/
def State.minuteBoundary (s : State) (w : WallClock) : State :=
  if w.minute < Config.minuteMax then { s with wall := some w.nextMinute }.sweep.decideHours
  else { s with wall := none }.decideHours

/-- MINUTE_BOUNDARY (R149): taken when the second has passed 59 (log 4). -/
def execMinuteBoundary (s : State) : Host.Outcome State Fault Refusal :=
  .next (s.event fun u =>
    match u.wall with
    | some w => if 60 ≤ w.seconds then u.minuteBoundary w else u
    | none => u)

/-! ### SET CLOCK (R150) and READ CLOCK (R151) -/

/-- SET CLOCK (R150). A minute number of three bytes is never above 16 777 215. -/
def State.setClock (minute second : Nat) (s : State) : Answer × State :=
  if 59 < second then (⟨.badValue, []⟩, s)
  else (.ok, ({ s with wall := some ⟨minute, second⟩ }.sweep.decideHours).mark .clock)

/-- SET CLOCK (R150). -/
def execSetClock (minute : BitVec 24) (second : Byte) (s : State) : Host.Outcome State Fault Refusal :=
  .next (s.serve (State.setClock minute.toNat second.toNat))

/-- The wall-clock fields of READ CLOCK, all ones while it is invalid (11). -/
def wallBytes (w : Option WallClock) : List Byte :=
  match w with
  | some w => num3 w.minute ++ [byte w.second] ++ num2 w.minuteOfWeek ++ [byte w.weekday] ++ num2 w.minuteOfDay
  | none => List.replicate 9 0xFF

/-- The payload of READ CLOCK (11). -/
def State.clockPayload (s : State) : List Byte :=
  num4 s.uptimeSec ++ num2 (s.uptimeMs % 1000) ++ [flag s.wall.isSome] ++ wallBytes s.wall
    ++ [byte s.decision.code, byte s.reference.state.code] ++ num4 s.reference.entered

/-- READ CLOCK (R151). -/
def execReadClock (s : State) : Host.Outcome State Fault Refusal :=
  .next (s.report fun u => .ok u.clockPayload)

/-! ### Windows (R152, R153) -/

/-- The content a WRITE WINDOW carries; none if it is refused BAD_VALUE (R153 check 3). -/
def windowOf? (f : WindowFields) : Option (Option HoursWindow) :=
  match f.form.toNat with
  | 0 => some none
  | 1 =>
    if f.weekdays ≠ 0 ∧ f.weekdays.toNat < 128 ∧ f.start.toNat ≤ 1439 ∧ f.stop.toNat ≤ 1440
        ∧ f.start.toNat < f.stop.toNat then
      some (some ⟨f.weekdays.setWidth 7, f.start.toNat, f.stop.toNat⟩)
    else none
  | _ => none

/-- The working copy with a window replaced. -/
def State.setWindow (s : State) (n : WindowNo) (x : Option HoursWindow) : State :=
  { s with settings := { s.settings with windows := s.settings.windows.set n x } }

/-- WRITE WINDOW for a window (R153). A write of the content it holds changes nothing. -/
def State.writeWindowAt (f : WindowFields) (n : WindowNo) (s : State) : Answer × State :=
  if !s.keyOn then (⟨.privilege, []⟩, s)
  else
    match windowOf? f with
    | none => (⟨.badValue, []⟩, s)
    | some x => (.ok, if s.settings.windows.get n = x then s else (s.setWindow n x).decideHours)

/-- WRITE WINDOW (R153). -/
def execWriteWindow (index : BitVec 16) (fields : WindowFields) (s : State) : Host.Outcome State Fault Refusal :=
  .next (s.serve fun u => onRecord index u (State.writeWindowAt fields))

/-- The WRITE WINDOW payload of a window's content; the bytes after the empty form are 0 (log 34). -/
def windowBytes (x : Option HoursWindow) : List Byte :=
  match x with
  | none => List.replicate 6 0
  | some y => [1, byte y.weekdays.toNat] ++ num2 y.start ++ num2 y.stop

/-- READ WINDOW (R153, 11). -/
def execReadWindow (index : BitVec 16) (s : State) : Host.Outcome State Fault Refusal :=
  .next (s.report fun u => readRecord index u fun n v =>
    .ok (windowBytes (v.settings.windows.get n) ++ [flag (v.windowHolds n)]))

/-! ### Reference supervision (R157) -/

/-- A change of the supervision's state records its uptime seconds (R157). -/
def State.toReference (s : State) (st : RefState) (proving : Option Nat) : State :=
  { s with reference := { state := st, entered := s.uptimeSec, provingEnd := proving } }

/-- REFERENCE_EDGE (R157). In RETURNING and REFERENCE it restarts the gap measurement, which is a filter before
REFERENCE_GAP (log 25). -/
def execReferenceEdge (s : State) : Host.Outcome State Fault Refusal :=
  .next (s.event fun u =>
    match u.reference.state with
    | .backup => u.toReference .returning (some (u.uptimeMs + Config.provingMs))
    | .returning | .reference => u)

/-- REFERENCE_GAP (R157). -/
def execReferenceGap (s : State) : Host.Outcome State Fault Refusal :=
  .next (s.event fun u =>
    match u.reference.state with
    | .backup => u
    | .returning | .reference => u.toReference .backup none)

/-- The proving period is over (R157). The internal oscillator measures it, and counts the uptime in RETURNING; where the
uptime counter has stopped (R147) the period goes on, and its end is taken when it is sent (log 24). -/
def State.provingOver (s : State) : Bool :=
  s.reached s.reference.provingEnd || decide (Config.uptimeSecMax ≤ s.uptimeSec)

/-- PROVING_PERIOD_END (R157). -/
def execProvingPeriodEnd (s : State) : Host.Outcome State Fault Refusal :=
  .next (s.event fun u =>
    if u.reference.state = .returning ∧ u.provingOver then u.toReference .reference none else u)

end Sys2Proof.Machine
end

