-- ==== Sys2Proof/Machine/Doors.lean ====
section
/-! DEFINITION. The host's requests on doors (R70 to R74) and the expiries of the door timers (R53 to R57, R60). -/

namespace Sys2Proof.Machine

/-! ### RELEASE EXIT (R72) -/

/-- The outcome byte (11). -/
def ExitOutcome.code : ExitOutcome → Nat
  | .started => 0 | .merged => 1 | .pending => 2 | .noEffect => 3

/-- RELEASE EXIT at a door: an ANONYMOUS_EXIT (R72). -/
def State.releaseExitAt (d : DoorNo) (s : State) : Answer × State :=
  (.ok [byte (s.takeExit d []).2.code], (s.takeExit d []).1)

/-- RELEASE EXIT (R72). -/
def execReleaseExit (index : BitVec 16) (s : State) : Host.Outcome State Fault Refusal :=
  .next (s.serve fun u => onRecord index u State.releaseExitAt)

/-! ### READ DOOR (R73) -/

/-- The grant as READ DOOR carries it. -/
def grantBytes (g : Option Grant) : List Byte :=
  [optByte (g.map fun x => x.kind.code)] ++ slots2 ((g.map Grant.slots).getD []) ++ deadline4 (g.bind Grant.lapse)

/-- The pending exit as READ DOOR carries it. -/
def pendingBytes (e : Option PendingExit) : List Byte :=
  [optByte (e.map fun x => (exitKind x.slots).code)] ++ slots2 ((e.map PendingExit.slots).getD [])

/-- The counts and the last denial as READ DOOR carries them (R73, 11). The credential of an absent denial is sent as 0 (the
model's choice, log 43). -/
def Door.countBytes (x : Door) : List Byte :=
  num2 x.passages.toNat ++ [byte x.forced, byte x.held, optReason (x.lastDenial.map Denial.reason)]
    ++ num3 ((x.lastDenial.map fun l => l.credential.toNat).getD 0)

/-- The settings as READ DOOR carries them. -/
def DoorSettings.bytes (c : DoorSettings) : List Byte :=
  [byte c.failMode.code, byte c.travelLimit, byte c.grantTime, byte c.reboltDelay] ++ num2 c.heldOpenLimit

/-- The pending pair as READ DOOR carries it; the duress flag is not reported. -/
def pairBytes (q : Option PendingPair) : List Byte :=
  num2 ((q.map fun x => x.permit.val).getD 0xFFFF) ++ deadline4 (q.map PendingPair.deadline)

/-- The payload of READ DOOR (11). -/
def State.doorPayload (s : State) (d : DoorNo) : List Byte :=
  let x := s.door d
  [byte x.state.code, optByte (x.state.cause.map FaultCause.code), byte x.baseMode.code, byte x.effMode.code]
    ++ grantBytes x.grant ++ pendingBytes x.pendingExit ++ deadline4 x.stepDeadline ++ x.countBytes
    ++ (s.doorSettings d).bytes
    ++ [optByte (x.contact.map Contact.code), optByte (x.bolt.map BoltReading.code),
      byte (boltDrive x (s.doorSettings d)).code, byte (indicator x).code, flag (s.buzzer d)]
    ++ pairBytes (if isOuter d then s.pair (roomOf d) else none)

/-- READ DOOR (R73). -/
def execReadDoor (index : BitVec 16) (s : State) : Host.Outcome State Fault Refusal :=
  .next (s.report fun u => readRecord index u fun d v => .ok (v.doorPayload d))

/-! ### SET DOOR MODE (R70) -/

/-- The new mode, or leaving the present one, needs ENGINEER level (R70 check 2). -/
def modeNeedsKey (present new : BaseMode) : Bool :=
  decide (new = .holdOpen) || decide (new = .outOfService) || decide (present = .outOfService)

/-- The refusals of a new HOLD_OPEN (R70 check 3). -/
def State.holdOpenRefusal (s : State) (d : DoorNo) : Option Reason :=
  if !(s.zone (roomOf d)).state.admits then some .zoneState
  else if !s.secured d ∨ (s.door d).pendingExit.isSome then some .wrongState
  else if !s.secured (partner d) ∨ (s.door (partner d)).baseMode = .holdOpen then some .interlock
  else none

/-- SET DOOR MODE to a mode that can be set (R70). -/
def State.setModeTo (s : State) (d : DoorNo) (m : BaseMode) : Answer × State :=
  if !s.keyOn ∧ modeNeedsKey (s.door d).baseMode m then (⟨.privilege, []⟩, s)
  else if (s.door d).baseMode = m then (.ok, s)
  else
    match if m = .holdOpen then s.holdOpenRefusal d else none with
    | some r => (.refusedFor r, s)
    | none => (.ok, (s.modDoor d fun x => { x with baseMode := m }).recomputeMode d)

/-- SET DOOR MODE at a door (R70). -/
def State.setDoorModeAt (mode : Byte) (d : DoorNo) (s : State) : Answer × State :=
  match baseMode? mode with
  | none => (⟨.badValue, []⟩, s)
  | some m => s.setModeTo d m

/-- SET DOOR MODE (R70). -/
def execSetDoorMode (index : BitVec 16) (mode : Byte) (s : State) : Host.Outcome State Fault Refusal :=
  .next (s.serve fun u => onRecord index u (State.setDoorModeAt mode))

/-! ### RESET DOOR (R71) -/

/-- RESET DOOR is taken: BOLT_JAM, or SENSOR_CONFLICT whose reading is no longer CONFLICT, and no exit driven (R71). -/
def Door.resettable (x : Door) : Bool :=
  x.grant.isNone && match x.state with
    | .fault .boltJam => true
    | .fault .sensorConflict => decide (x.bolt ≠ some .conflict)
    | _ => false

/-- RESET DOOR at a door (R71). -/
def State.resetDoorAt (d : DoorNo) (s : State) : Answer × State :=
  if (s.door d).resettable then
    (.ok, if (s.door d).contact = some .opened then s.toOpen d none else s.toBolting d)
  else (.refusedFor .wrongState, s)

/-- RESET DOOR (R71). -/
def execResetDoor (index : BitVec 16) (s : State) : Host.Outcome State Fault Refusal :=
  .next (s.serve fun u => onRecord index u State.resetDoorAt)

/-! ### CLEAR COUNTS (R74) -/

/-- The record with its three counts at 0 (R74). -/
def Door.clearCounts (x : Door) : Door := { x with passages := 0, forced := 0, held := 0 }

/-- CLEAR COUNTS at a door (R74). -/
def State.clearCountsAt (d : DoorNo) (s : State) : Answer × State := (.ok, s.modDoor d Door.clearCounts)

/-- CLEAR COUNTS (R74). -/
def execClearCounts (index : BitVec 16) (s : State) : Host.Outcome State Fault Refusal :=
  .next (s.serve fun u => onRecord index u State.clearCountsAt)

/-! ### Timer expiries -/

/-- The step deadline of the door has been reached. -/
def State.stepDue (s : State) (d : DoorNo) : Bool := s.reached (s.door d).stepDeadline

/-- The travel limit runs out: BOLT_JAM, or the end of an exit driven in FAULT (R53, R57, R60). -/
def State.travelRunsOut (s : State) (d : DoorNo) : State :=
  match (s.door d).state with
  | .unbolting | .bolting => s.enterFault d .boltJam
  | .fault _ =>
    if (s.door d).grant.isSome then
      (((s.modDoor d fun x => { x with stepDeadline := none }).endGrant d).releasePending d)
    else s
  | .secured | .released | .opened | .closedWait => s

/-- TRAVEL_LIMIT (R53, R57, R60). -/
def execTravelLimit (d : DoorNo) (s : State) : Host.Outcome State Fault Refusal :=
  .next (s.fieldEvent fun u => if u.stepDue d then u.travelRunsOut d else u)

/-- LAPSE (R54): the grant of a RELEASED door ends without passage, or a door RELEASED without a grant re-bolts. -/
def execLapse (d : DoorNo) (s : State) : Host.Outcome State Fault Refusal :=
  .next (s.fieldEvent fun u =>
    if (u.door d).state = .released ∧ u.stepDue d then (u.endGrant d).toBoltingOrHeld d else u)

/-- The held-open limit runs out: DOOR_HELD is raised and held counts (R55). -/
def State.heldOpen (s : State) (d : DoorNo) : State :=
  (s.modDoor d fun x => { x with held := min (x.held + 1) Config.countMax, stepDeadline := none }).raise
    (keyHeld d) none

/-- HELD_OPEN_LIMIT (R55). -/
def execHeldOpenLimit (d : DoorNo) (s : State) : Host.Outcome State Fault Refusal :=
  .next (s.fieldEvent fun u => if (u.door d).state = .opened ∧ u.stepDue d then u.heldOpen d else u)

/-- REBOLT_DELAY_END (R56): the passage of the grant, if there is one, is complete, and the door re-bolts. -/
def execReboltDelayEnd (d : DoorNo) (s : State) : Host.Outcome State Fault Refusal :=
  .next (s.fieldEvent fun u =>
    if (u.door d).state = .closedWait ∧ u.stepDue d then (u.completePassage d).toBoltingOrHeld d else u)

end Sys2Proof.Machine
end

