-- ==== Sys2Proof/Machine/Link.lean ====
section
/-! DEFINITION. The host link's windows (R160 to R162, R165) and its own requests: READ STATUS, TAKE CHANGES,
SET ATTENTION and RESTART (R170 to R174). -/

namespace Sys2Proof.Machine

/-! ### Windows (R160) -/

/-- The framer in a step, with no answer. -/
def State.toStep (s : State) (w : WindowStep) : State :=
  { s with framer := { step := w, answer := none } }

/-- WINDOW_START (R160). While the part is held each window is taken as DISCARDING (R177). -/
def execWindowStart (s : State) : Host.Outcome State Fault Refusal :=
  .next (match s.framer.step with
    | .idle => s.toStep (if s.running then .receiving else .discarding)
    | .receiving | .answering | .done | .discarding => s)

/-- WINDOW_END (R160, R165): in every step the framer returns to IDLE. A request whose last byte was accepted stands;
what had not been clocked out of its answer is lost. -/
def execWindowEnd (s : State) : Host.Outcome State Fault Refusal :=
  .next (s.toStep .idle)

/-- WINDOW_DISCARD (R161): the first byte of the window is no lead byte. -/
def execWindowDiscard (first : Byte) (s : State) : Host.Outcome State Fault Refusal :=
  .next (if s.framer.step = .receiving ∧ first ≠ leadLong ∧ first ≠ leadShort then s.toStep .discarding else s)

/-- BAD_FRAME (R162): the framer rejects the frame, and answers BAD_FRAME. Nothing else changes. -/
def execBadFrame (frame : List Byte) (s : State) : Host.Outcome State Fault Refusal :=
  .next (if s.framer.step = .receiving ∧ readFrame frame = .bad then s.answering ⟨.badFrame, []⟩ else s)

/-- ANSWER_SENT (R164): the check byte of the answer has been sent. -/
def execAnswerSent (s : State) : Host.Outcome State Fault Refusal :=
  .next (if s.framer.step = .answering then s.toStep .done else s)

/-! ### READ STATUS (R173) -/

/-- The flags of READ STATUS (11). -/
def State.statusFlags (s : State) : Nat :=
  bit 0 s.settingsDefaulted + bit 1 s.commitFailed + bit 2 s.commitBusy + bit 3 s.rosterHigh + bit 4 s.overflow
    + bit 5 s.supplyRestarted + bit 6 s.clockInvalid

/-- The payload of READ STATUS (11). -/
def State.statusPayload (s : State) : List Byte :=
  [byte s.statusFlags] ++ (List.finRange 4).map (fun l => byte (s.lostStations l))
    ++ [byte s.lostCount, flag s.keyOn, s.attentionMask] ++ num2 s.changes.size

/-- READ STATUS (R173): it reports SUPPLY_RESTARTED as it stood and then clears it. The change-set size that it reports
does not count the mark of STATUS that this clearing makes (the model's choice, log 40). -/
def execReadStatus (s : State) : Host.Outcome State Fault Refusal :=
  .next (s.serve fun u => (.ok u.statusPayload, { u with supplyRestarted := false }))

/-! ### TAKE CHANGES (R170) -/

/-- The identities that a take removes: the first 20 in take order. -/
def ChangeSet.taken (c : ChangeSet) : List Identity := c.members.take Config.takeLimit

/-- The payload of TAKE CHANGES (11). -/
def takePayload (ids : List Identity) (left : Nat) : List Byte :=
  [byte ids.length] ++ ids.flatMap (fun i => num2 i.code) ++ num2 left

/-- TAKE CHANGES as one event at the host link (R170). -/
def State.takeChanges (s : State) : Answer × State :=
  let ids := s.changes.taken
  let c := s.changes.without ids
  (.ok (takePayload ids c.size), { s with changes := c })

/-- TAKE CHANGES (R170). -/
def execTakeChanges (s : State) : Host.Outcome State Fault Refusal :=
  .next (s.serve State.takeChanges)

/-! ### SET ATTENTION (R171) -/

/-- SET ATTENTION (R171). -/
def State.setAttention (a b : Byte) (s : State) : Answer × State :=
  if a &&& b ≠ 0 then (⟨.badValue, []⟩, s)
  else
    let m := (s.attentionMask ||| a) &&& ~~~b
    (.ok [m], { s with attentionMask := m })

/-- SET ATTENTION (R171). -/
def execSetAttention (setMask clearMask : Byte) (s : State) : Host.Outcome State Fault Refusal :=
  .next (s.serve (State.setAttention setMask clearMask))

/-! ### RESTART (R174) -/

/-- RESTART (R174): the change set is filled and the mask takes its default; every other block is untouched. -/
def execRestart (s : State) : Host.Outcome State Fault Refusal :=
  .next (s.serve fun u => (.ok, { u with changes := ChangeSet.full, attentionMask := defaultMask }))

end Sys2Proof.Machine
end

