-- ==== Sys2Proof/Machine/Roster.lean ====
section
/-! DEFINITION. The host's requests on the roster: READ ROSTER, READ OCCUPANT, RETIRE OCCUPANT (R46 to R48) and
CONFIRM VACANT (R26). -/

namespace Sys2Proof.Machine

/-- One entry of READ ROSTER: the slot and its phase. -/
def State.rosterEntry (s : State) (o : Slot) : List Byte :=
  [byte o.val, optByte ((s.occupant o).map fun x => x.phase.code)]

/-- READ ROSTER for a strongroom (R46, 11). -/
def State.rosterAnswer (r : Room) (s : State) : Answer :=
  .ok ([flag (s.uncertain.get r), byte (s.zoneSettings r).occupancyLimit, byte (s.roomCount r)]
    ++ (s.list r).flatMap s.rosterEntry)

/-- READ ROSTER (R46). -/
def execReadRoster (index : BitVec 16) (s : State) : Host.Outcome State Fault Refusal :=
  .next (s.report fun u => readRecord index u State.rosterAnswer)

/-- The payload of READ OCCUPANT (11). -/
def Occupant.payload (x : Occupant) : List Byte :=
  [byte x.room.val] ++ num2 x.permit.val ++ [byte x.phase.code] ++ num4 x.admittedAt
    ++ [flag x.duress, optByte (x.partner.map Fin.val), optByte (x.watch.map fun w => w.stage.code)]
    ++ deadline4 (x.watch.bind Watch.deadline)

/-- READ OCCUPANT for a slot (R47). -/
def State.occupantAnswer (o : Slot) (s : State) : Answer :=
  match s.occupant o with
  | none => ⟨.notFound, []⟩
  | some x => .ok x.payload

/-- READ OCCUPANT (R47). -/
def execReadOccupant (index : BitVec 16) (s : State) : Host.Outcome State Fault Refusal :=
  .next (s.report fun u => readRecord index u State.occupantAnswer)

/-- RETIRE OCCUPANT for a slot (R48). -/
def State.retireOccupantAt (o : Slot) (s : State) : Answer × State :=
  if (s.occupant o).isNone then (⟨.notFound, []⟩, s) else (.ok, s.leaveRoster o)

/-- RETIRE OCCUPANT (R48). -/
def execRetireOccupant (index : BitVec 16) (s : State) : Host.Outcome State Fault Refusal :=
  .next (s.serve fun u => onRecord index u State.retireOccupantAt)

/-- A door of the strongroom has the effective mode HOLD_OPEN. -/
def State.anyHoldOpen (s : State) (r : Room) : Bool :=
  decide ((s.door (outerDoor r)).effMode = .holdOpen) || decide ((s.door (innerDoor r)).effMode = .holdOpen)

/-- CONFIRM VACANT for a strongroom (R26). -/
def State.confirmVacantAt (r : Room) (s : State) : Answer × State :=
  if !s.keyOn then (⟨.privilege, []⟩, s)
  else if s.list r ≠ [] ∨ s.anyHoldOpen r then (.refusedFor .inUse, s)
  else (.ok, { s with uncertain := s.uncertain.set r false })

/-- CONFIRM VACANT (R26). -/
def execConfirmVacant (index : BitVec 16) (s : State) : Host.Outcome State Fault Refusal :=
  .next (s.serve fun u => onRecord index u State.confirmVacantAt)

end Sys2Proof.Machine
end

