-- ==== Sys2Proof/Machine/SettingsStore.lean ====
section
/-! DEFINITION. The settings store: the numbered items (R176), READ SETTING (R180), WRITE SETTING with the effects of
each item (R79, R178, R179), COMMIT SETTINGS and its completion (R181), and the image's check (R176). -/

namespace Sys2Proof.Machine

/-! ### Setting numbers (R176) -/

/-- The settings of a door, in the order k of R176. -/
inductive DoorItem where
  | failMode | travelLimit | grantTime | reboltDelay | heldOpenLimit
deriving DecidableEq, Repr

/-- The settings of a zone, in the order k of R176. -/
inductive ZoneItem where
  | predischarge | resume | holdLimit | confirmWindow | occupancyLimit | twoPerson | checkIn
deriving DecidableEq, Repr

/-- The items that belong to no record. -/
inductive GlobalItem where
  | missLimit | rosterHigh | pairWindow | grace1 | grace2
deriving DecidableEq, Repr

/-- An item of the working copy that has a setting number. -/
inductive SettingItem where
  | station (t : StationId)
  | door (d : DoorNo) (k : DoorItem)
  | zone (z : Room) (k : ZoneItem)
  | global (k : GlobalItem)
deriving DecidableEq, Repr

def doorItem? : Nat → Option DoorItem
  | 0 => some .failMode
  | 1 => some .travelLimit
  | 2 => some .grantTime
  | 3 => some .reboltDelay
  | 4 => some .heldOpenLimit
  | _ => none

def zoneItem? : Nat → Option ZoneItem
  | 0 => some .predischarge
  | 1 => some .resume
  | 2 => some .holdLimit
  | 3 => some .confirmWindow
  | 4 => some .occupancyLimit
  | 5 => some .twoPerson
  | 6 => some .checkIn
  | _ => none

def globalItem? : Nat → Option GlobalItem
  | 0 => some .missLimit
  | 1 => some .rosterHigh
  | 2 => some .pairWindow
  | 3 => some .grace1
  | 4 => some .grace2
  | _ => none

/-- The item of a setting number; none if it is unassigned (R176). -/
def settingItem? (n : Nat) : Option SettingItem :=
  if n < 64 then some (.station (Fin.ofNat 64 n))
  else if n < 256 then none
  else if n < 512 then (doorItem? ((n - 256) % 8)).map (.door (Fin.ofNat 32 ((n - 256) / 8)))
  else if n < 640 then (zoneItem? ((n - 512) % 8)).map (.zone (Fin.ofNat 16 ((n - 512) / 8)))
  else if n < 768 then none
  else (globalItem? (n - 768)).map .global

/-! ### READ SETTING (R180) -/

/-- The value of a station-table entry: role, number, last flag and 0 (11). -/
def StationEntry.value (e : StationEntry) : List Byte :=
  [byte e.role.code, byte (e.role.number.getD 0), flag e.last, 0]

def DoorSettings.item (c : DoorSettings) : DoorItem → Nat
  | .failMode => c.failMode.code
  | .travelLimit => c.travelLimit
  | .grantTime => c.grantTime
  | .reboltDelay => c.reboltDelay
  | .heldOpenLimit => c.heldOpenLimit

def ZoneSettings.item (c : ZoneSettings) : ZoneItem → Nat
  | .predischarge => c.predischarge
  | .resume => c.resume
  | .holdLimit => c.holdLimit
  | .confirmWindow => c.confirmWindow
  | .occupancyLimit => c.occupancyLimit
  | .twoPerson => c.twoPerson.toNat
  | .checkIn => c.checkIn

def Settings.item (c : Settings) : GlobalItem → Nat
  | .missLimit => c.missLimit
  | .rosterHigh => c.rosterHigh
  | .pairWindow => c.pairWindow
  | .grace1 => c.grace1
  | .grace2 => c.grace2

/-- The value of an item as four bytes (11). -/
def Settings.value (c : Settings) : SettingItem → List Byte
  | .station t => (c.stations.get t).value
  | .door d k => num4 ((c.doors.get d).item k)
  | .zone z k => num4 ((c.zones.get z).item k)
  | .global k => num4 (c.item k)

/-- READ SETTING for a number (R180). -/
def State.settingAnswer (s : State) (index : BitVec 16) : Answer :=
  match settingItem? index.toNat with
  | none => ⟨.badValue, []⟩
  | some i => .ok (s.settings.value i)

/-- READ SETTING (R180). -/
def execReadSetting (index : BitVec 16) (s : State) : Host.Outcome State Fault Refusal :=
  .next (s.report fun u => u.settingAnswer index)

/-! ### Ranges (R75, R121, R176) -/

def DoorItem.holds (k : DoorItem) (v : Nat) : Bool :=
  match k with
  | .failMode => decide (v ≤ 1)
  | .travelLimit => Config.travelLimit.holds v
  | .grantTime => Config.grantTime.holds v
  | .reboltDelay => Config.reboltDelay.holds v
  | .heldOpenLimit => Config.heldOpenLimit.holds v

def ZoneItem.holds (k : ZoneItem) (v : Nat) : Bool :=
  match k with
  | .predischarge => Config.predischargeTime.holds v
  | .resume => Config.resumeTime.holds v
  | .holdLimit => Config.holdLimit.holds v
  | .confirmWindow => Config.confirmWindow.holds v
  | .occupancyLimit => Config.occupancyLimit.holds v
  | .twoPerson => decide (v ≤ 1)
  | .checkIn => Config.checkInPeriod.holds v

def GlobalItem.holds (k : GlobalItem) (v : Nat) : Bool :=
  match k with
  | .missLimit => Config.missLimit.holds v
  | .rosterHigh => Config.rosterHighLevel.holds v
  | .pairWindow => Config.pairWindow.holds v
  | .grace1 => Config.grace.holds v
  | .grace2 => Config.grace.holds v

/-- The role that a role byte and a number byte name (11). -/
def role? (role number : Byte) : Option Role :=
  match role.toNat with
  | 0 => if number = 0 then some .unused else none
  | 1 => if h : number.toNat < 32 then some (.door ⟨number.toNat, h⟩) else none
  | 2 => if h : number.toNat < 16 then some (.zone ⟨number.toNat, h⟩) else none
  | 3 => if number = 0 then some .muster else none
  | _ => none

/-- A flag byte: 00h or 01h (11). -/
def flag? (b : Byte) : Option Bool :=
  match b.toNat with
  | 0 => some false
  | 1 => some true
  | _ => none

/-- The station-table entry that a value carries; none for any other content (11, R178). -/
def stationEntry? (v : BitVec 32) : Option StationEntry :=
  match role? (v.extractLsb' 24 8) (v.extractLsb' 16 8), flag? (v.extractLsb' 8 8) with
  | some r, some l => if v.extractLsb' 0 8 = 0 then some ⟨r, l⟩ else none
  | _, _ => none

/-! ### A write of a station-table entry (R79) -/

/-- The entry of an address after entry `e` has been written at `t`: the last flag is cleared on every other slot of its
loop (R79). -/
def tableEntry (old : Table 64 StationEntry) (t : StationId) (e : StationEntry) (u : StationId) : StationEntry :=
  if u = t then e
  else if e.last ∧ loopOf u = loopOf t then { old.get u with last := false }
  else old.get u

/-- The station table after the write. -/
def tableAfter (old : Table 64 StationEntry) (t : StationId) (e : StationEntry) : Table 64 StationEntry :=
  Table.ofFn (tableEntry old t e)

/-- The write takes the address out of service: its role changes, or it has a role other than UNUSED and leaves the
poll cycle (R79). -/
def leavesService (old new : Table 64 StationEntry) (u : StationId) : Bool :=
  decide ((old.get u).role ≠ (new.get u).role)
    || (decide ((old.get u).role ≠ .unused) && inCycle old u && !inCycle new u)

/-- The addresses that the write takes out of service, ascending. -/
def outOfService (old new : Table 64 StationEntry) : List StationId :=
  (List.finRange 64).filter (leavesService old new)

/-- The role serves a door that is neither SECURED nor in FAULT STATION_LOST, or a zone that is not NORMAL or ISOLATED
(R79). -/
def State.busyRole (s : State) : Role → Bool
  | .door d => decide ((s.door d).state ≠ .secured) && decide ((s.door d).state ≠ .fault .stationLost)
  | .zone z => !(s.zone z).state.admits
  | .unused | .muster => false

/-- The role names a door or zone, so that one address at most may hold it (R79). -/
def Role.exclusive : Role → Bool
  | .door _ | .zone _ => true
  | .unused | .muster => false

/-- Another address already serves the door or zone (R79). -/
def servedElsewhere (old : Table 64 StationEntry) (t : StationId) (role : Role) : Bool :=
  role.exclusive && (List.finRange 64).any fun u => decide (u ≠ t) && decide ((old.get u).role = role)

/-- The refusals of a station entry (R79, R178 check 5). -/
def State.stationRefused (s : State) (t : StationId) (e : StationEntry) : Bool :=
  servedElsewhere s.settings.stations t e.role
    || (outOfService s.settings.stations (tableAfter s.settings.stations t e)).any fun u =>
      s.busyRole (s.entry u).role

/-- Every STATION_LOST alarm that names the address loses its cause (R79 step 2). -/
def State.endStationLost (s : State) (t : StationId) : State :=
  { s with alarms := s.alarms.map fun x => x.map fun a =>
      if a.key.kind = .stationLost ∧ a.key.station = some t then a.endCause else a }

/-- An address that leaves its role: its old owner is told, its STATION_LOST cause ends, its record is as at power-on
and its handshake ends (R79, R92). -/
def State.leaveService (s : State) (t : StationId) : State :=
  (((s.ownerLost (s.entry t).role).endStationLost t).setStation t Station.atPowerOn).setNote t .clear

/-- The station table is written (R79). The old owners are told under the old table. -/
def State.writeStation (s : State) (t : StationId) (e : StationEntry) : State :=
  let new := tableAfter s.settings.stations t e
  let u := (outOfService s.settings.stations new).foldl State.leaveService s
  { u with settings := { u.settings with stations := new } }

/-! ### Writes of the other items (R179) -/

def DoorSettings.withItem (c : DoorSettings) (k : DoorItem) (v : Nat) : DoorSettings :=
  match k with
  | .failMode => { c with failMode := if v = 0 then .failSecure else .failRelease }
  | .travelLimit => { c with travelLimit := v }
  | .grantTime => { c with grantTime := v }
  | .reboltDelay => { c with reboltDelay := v }
  | .heldOpenLimit => { c with heldOpenLimit := v }

def ZoneSettings.withItem (c : ZoneSettings) (k : ZoneItem) (v : Nat) : ZoneSettings :=
  match k with
  | .predischarge => { c with predischarge := v }
  | .resume => { c with resume := v }
  | .holdLimit => { c with holdLimit := v }
  | .confirmWindow => { c with confirmWindow := v }
  | .occupancyLimit => { c with occupancyLimit := v }
  | .twoPerson => { c with twoPerson := decide (v = 1) }
  | .checkIn => { c with checkIn := v }

def Settings.withItem (c : Settings) (k : GlobalItem) (v : Nat) : Settings :=
  match k with
  | .missLimit => { c with missLimit := v }
  | .rosterHigh => { c with rosterHigh := v }
  | .pairWindow => { c with pairWindow := v }
  | .grace1 => { c with grace1 := v }
  | .grace2 => { c with grace2 := v }

/-- A door setting is written and the door's counts become 0 (R74, R75). -/
def State.writeDoorItem (s : State) (d : DoorNo) (k : DoorItem) (v : Nat) : State :=
  let c := { s.settings with doors := s.settings.doors.set d ((s.doorSettings d).withItem k v) }
  { s with
    settings := c
    doors := s.doors.set d { s.door d with passages := 0, forced := 0, held := 0 } }

/-- A zone setting is written (R121). -/
def State.writeZoneItem (s : State) (z : Room) (k : ZoneItem) (v : Nat) : State :=
  { s with settings := { s.settings with zones := s.settings.zones.set z ((s.zoneSettings z).withItem k v) } }

/-- An occupancy limit below the strongroom's present count (R121, R178 check 5). -/
def State.limitRefused (s : State) (z : Room) (k : ZoneItem) (v : Nat) : Bool :=
  decide (k = .occupancyLimit) && decide (v < s.roomCount z)

/-! ### WRITE SETTING (R178, R179) -/

/-- What a WRITE SETTING that has passed checks 1 to 3 does: none for BAD_VALUE, else the refusal IN_USE or the state
after the write (R178 checks 4 and 5, R179). -/
inductive SettingWrite where
  | badValue
  | inUse
  | taken (s : State)

/-- A write with its checks 4 and 5 made. -/
def settingWrite (inRange refused : Bool) (after : State) : SettingWrite :=
  if !inRange then .badValue else if refused then .inUse else .taken after

/-- The write of an item (R178, R179). A value equal to the one held changes nothing. -/
def State.writeItem (s : State) (i : SettingItem) (v : BitVec 32) : SettingWrite :=
  match i with
  | .station t =>
    match stationEntry? v with
    | none => .badValue
    | some e => settingWrite true (s.stationRefused t e) (if s.entry t = e then s else s.writeStation t e)
  | .door d k =>
    settingWrite (k.holds v.toNat) false
      (if (s.doorSettings d).item k = v.toNat then s else s.writeDoorItem d k v.toNat)
  | .zone z k => settingWrite (k.holds v.toNat) (s.limitRefused z k v.toNat) (s.writeZoneItem z k v.toNat)
  | .global k =>
    settingWrite (k.holds v.toNat) false { s with settings := s.settings.withItem k v.toNat }

/-- The answer of a write. -/
def SettingWrite.outcome (s : State) : SettingWrite → Answer × State
  | .badValue => (⟨.badValue, []⟩, s)
  | .inUse => (.refusedFor .inUse, s)
  | .taken t => (.ok, t)

/-- WRITE SETTING (R178). -/
def State.writeSetting (index : BitVec 16) (value : BitVec 32) (s : State) : Answer × State :=
  match settingItem? index.toNat with
  | none => (⟨.badValue, []⟩, s)
  | some i =>
    if !s.keyOn then (⟨.privilege, []⟩, s)
    else if s.commitBusy then (⟨.busy, []⟩, s)
    else (s.writeItem i value).outcome s

/-- WRITE SETTING (R178, R179). -/
def execWriteSetting (index : BitVec 16) (value : BitVec 32) (s : State) : Host.Outcome State Fault Refusal :=
  .next (s.serve (State.writeSetting index value))

/-! ### COMMIT SETTINGS (R181) -/

/-- COMMIT SETTINGS (R181): a snapshot of the whole working copy is taken. -/
def State.beginCommit (s : State) : Answer × State :=
  if !s.keyOn then (⟨.privilege, []⟩, s)
  else if s.commitBusy then (⟨.busy, []⟩, s)
  else (.ok, { s with commit := some s.settings })

/-- COMMIT SETTINGS (R181). -/
def execCommitSettings (s : State) : Host.Outcome State Fault Refusal :=
  .next (s.serve State.beginCommit)

/-- The completion of a commit (R181): verified, the image holds the snapshot; failed, it is invalid. -/
def State.completeCommit (s : State) (verified : Bool) : State :=
  match s.commit with
  | none => s
  | some c =>
    if verified then
      { s with image := some c, commit := none, commitFailed := false, settingsDefaulted := false }
    else { s with image := none, commit := none, commitFailed := true }

/-- COMMIT_COMPLETION (R181). -/
def execCommitCompletion (verified : Bool) (s : State) : Host.Outcome State Fault Refusal :=
  .next (s.event fun u => u.completeCommit verified)

/-! ### The image's check (R176) -/

def DoorSettings.inRange (c : DoorSettings) : Bool :=
  DoorItem.holds .travelLimit c.travelLimit && DoorItem.holds .grantTime c.grantTime
    && DoorItem.holds .reboltDelay c.reboltDelay && DoorItem.holds .heldOpenLimit c.heldOpenLimit

def ZoneSettings.inRange (c : ZoneSettings) : Bool :=
  ZoneItem.holds .predischarge c.predischarge && ZoneItem.holds .resume c.resume
    && ZoneItem.holds .holdLimit c.holdLimit && ZoneItem.holds .confirmWindow c.confirmWindow
    && ZoneItem.holds .occupancyLimit c.occupancyLimit && ZoneItem.holds .checkIn c.checkIn

def HoursWindow.inRange (x : HoursWindow) : Bool :=
  decide (x.weekdays ≠ 0) && decide (x.start ≤ 1439) && decide (x.stop ≤ 1440) && decide (x.start < x.stop)

/-- Every value of the contents lies in its range (R176). -/
def Settings.inRange (c : Settings) : Bool :=
  c.doors.toList.all DoorSettings.inRange && c.zones.toList.all ZoneSettings.inRange
    && GlobalItem.holds .missLimit c.missLimit && GlobalItem.holds .rosterHigh c.rosterHigh
    && GlobalItem.holds .pairWindow c.pairWindow && GlobalItem.holds .grace1 c.grace1
    && GlobalItem.holds .grace2 c.grace2 && c.windows.toList.all fun x => x.all HoursWindow.inRange

end Sys2Proof.Machine
end

