-- ==== Sys2Proof/Machine/SupplyMonitor.lean ====
section
/-! DEFINITION. Start-up and supply: the hold, power-on and the image load (R177), entry to LOW (R183), the supply
restart (R184), the loss of the retained domain (R182), and the keyswitch (R185). -/

namespace Sys2Proof.Machine

/-! ### The hold (R177) -/

/-- The image after power-off or the reset input: a commit in flight leaves it failing its check (R177, R181). -/
def State.imageAfterStop (s : State) : Option Settings :=
  match s.commit with
  | some _ => none
  | none => s.image

/-- The part stops: everything that was not in the image is lost (R177). What is lost takes its power-on value at once
(log 13). -/
def State.stopped (s : State) (p : Power) : State :=
  { State.powerOn Settings.factory false s.imageAfterStop with power := p, pending := s.pending }

/-- The supply holds the part, or is in LOW, so that a hold must wait for it to rise. -/
def State.supplyHolds (s : State) : Bool :=
  match s.power with
  | .held _ b => b
  | .loading => false
  | .running => s.inLow

/-- The reset input holds the part. -/
def State.resetHolds (s : State) : Bool :=
  match s.power with
  | .held b _ => b
  | .loading | .running => false

/-- RESET_INPUT (R177, R185): the reset input has been taken, and holds the part until it is released. -/
def execResetInput (s : State) : Host.Outcome State Fault Refusal :=
  .next (s.stopped (.held true s.supplyHolds))

/-- SUPPLY_BELOW_RETENTION (R182): the retained domain is lost. -/
def execSupplyBelowRetention (s : State) : Host.Outcome State Fault Refusal :=
  .next (s.stopped (.held s.resetHolds true))

/-- A hold with one of its conditions ended; when both have ended the image is loaded (R177). -/
def afterHold (byReset bySupply : Bool) : Power :=
  if byReset || bySupply then .held byReset bySupply else .loading

/-- POWER_ON (R177): one of the conditions that hold the part has ended. -/
def execPowerOn (cause : PowerOnCause) (s : State) : Host.Outcome State Fault Refusal :=
  .next (match s.power with
    | .held byReset bySupply =>
      match cause with
      | .supplyRise => { s with power := afterHold byReset false }
      | .resetRelease => { s with power := afterHold false bySupply }
    | .loading | .running => s)

/-- The image passes its check and has these contents (R176). -/
def State.goodImage (s : State) : Option Settings := s.image.filter Settings.inRange

/-- IMAGE_LOAD (R177): the working copy takes the image or the factory defaults, every block takes its power-on values
and the part starts. -/
def execImageLoad (s : State) : Host.Outcome State Fault Refusal :=
  .next (match s.power with
    | .loading =>
      match s.goodImage with
      | some c => { State.powerOn c false s.image with pending := s.pending }
      | none => { State.powerOn Settings.factory true s.image with pending := s.pending }
    | .held _ _ | .running => s)

/-! ### Entry to LOW (R183) -/

/-- WAITING is dropped and an undecided presentation is dropped; ANSWERING stays (R96, R183). -/
def Handshake.atLow : Handshake → Handshake
  | .answering d m => .answering d m
  | .idle | .waiting _ | .handed _ => .idle

/-- What the LOW period must remember (R145, R183). -/
def State.lowPeriod (s : State) : LowPeriod where
  since := s.uptimeMs
  lines := s.lines
  unescorted := Table.ofFn s.unescorted

/-- The loops stop with their slot times abandoned, and the handshakes are dropped (R183). The line values are those the
state given stands at. -/
def State.enterLow (s : State) : State :=
  { s with
    stations := s.stations.map fun x => { x with handshake := x.handshake.atLow }
    notes := s.notes.map fun _ => HandshakeNotes.clear
    loops := s.loops.map fun x => { x with lastPoll := none }
    supply := .low s.lowPeriod }

/-- SUPPLY_LOW (R183). While the reset input holds the part, the supply then holds it too (R177). While the image is
loading it changes nothing (the model's choice, log 14). -/
def execSupplyLow (s : State) : Host.Outcome State Fault Refusal :=
  .next (match s.power with
    | .held byReset _ => { s with power := .held byReset true }
    | .loading => s
    | .running => s.fieldEvent State.enterLow)

/-! ### Supply restart (R184) -/

/-- The station record at the restart (R96). -/
def Station.restarted (x : Station) : Station :=
  { x with presence := .unseen, missed := 0, candidate := none }

/-- Every station in the poll cycle at the restart (R96). -/
def State.restartStations (s : State) : State :=
  { s with stations := Table.ofFn fun t =>
      if inCycle s.settings.stations t then (s.station t).restarted else s.station t }

/-- A watch whose deadline is extended by the time spent in LOW after it was last set (R145). -/
def Watch.extended (w : Watch) (since now : Nat) : Watch :=
  { w with deadline := w.deadline.map fun t => t + (now - max since w.setAt) }

/-- Every watch at the restart (R145). -/
def State.extendWatches (s : State) (since : Nat) : State :=
  { s with occupants := s.occupants.map fun x => x.map fun o =>
      { o with watch := o.watch.map fun w => w.extended since s.uptimeMs } }

/-- Roster, stations, loops, doors, zones, watches and host link at the restart (R184). -/
def State.restartBlocks (s : State) (p : LowPeriod) : State :=
  let s1 :=
    { s with
      supply := .normal
      uncertain := Table.replicate 16 true
      pairs := Table.replicate 16 none
      loops := Table.replicate 4 { nextSlot := 0, lastPoll := none }
      attentionMask := defaultMask
      supplyRestarted := true }
  (s1.restartStations.restartDoors.restartZones).extendWatches p.since

/-- What ends the restart: as every event, with the unescorted condition compared with its value at entry to LOW
(R145), and the change set full (R175). -/
def State.finishRestart (old s : State) (p : LowPeriod) : State :=
  let s1 := State.holdPass old s
  let s2 := (List.finRange 16).foldl (State.unescortedRoom p.unescorted.get) s1
  { State.watchPass old s2.takeRaises with changes := ChangeSet.full }

/-- SUPPLY_RESTART (R184). -/
def execSupplyRestart (s : State) : Host.Outcome State Fault Refusal :=
  .next (match s.running, s.supply with
    | true, .low p => State.finishRestart s ({ s with handedRaises := [] }.restartBlocks p) p
    | _, _ => s)

/-! ### The keyswitch (R185) -/

/-- KEY_VALIDATED (R185). From power-on until its first validation the key is off. -/
def execKeyValidated (on : Bool) (s : State) : Host.Outcome State Fault Refusal :=
  .next (if s.running then { s with keyOn := on } else s)

end Sys2Proof.Machine
end

