-- ==== Sys2Proof/Machine/Zones.lean ====
section
/-! DEFINITION. The host's requests on zones (R117 to R120), the expiries of the zone timers (R107, R112, R113) and
the hold limit (R110). -/

namespace Sys2Proof.Machine

/-! ### READ ZONE (R120) -/

/-- The bits of the hold reasons (11). -/
def HoldReasons.bits (r : HoldReasons) : Nat :=
  bit 0 r.abort + bit 1 r.occupied + bit 2 r.uncertain + bit 3 r.doorOpen + bit 4 r.stationLost

/-- The bits of the three switches (11). -/
def Zone.switches (x : Zone) : Nat := bit 0 x.abort + bit 1 x.manualRelease + bit 2 x.pressure

/-- Seconds remaining: the reported deadline less the present uptime seconds; FFFFh if absent (11, log 33). -/
def State.secondsLeft (s : State) (deadline : Option Nat) : List Byte :=
  num2 ((deadline.map fun t => reportSec t - s.uptimeSec).getD 0xFFFF)

/-- Milliseconds remaining; FFFFh if absent (11). -/
def State.millisLeft (s : State) (deadline : Option Nat) : List Byte :=
  num2 ((deadline.map fun t => t - s.uptimeMs).getD 0xFFFF)

/-- The seven settings of a zone in the order of R121. -/
def ZoneSettings.bytes (c : ZoneSettings) : List Byte :=
  [byte c.predischarge, byte c.resume] ++ num2 c.holdLimit
    ++ [byte c.confirmWindow, byte c.occupancyLimit, flag c.twoPerson, byte c.checkIn]

/-- The payload of READ ZONE (11). -/
def State.zonePayload (s : State) (z : Room) : List Byte :=
  let x := s.zone z
  [byte x.state.code, byte x.holdReasons.bits] ++ s.secondsLeft x.countdown ++ num2 x.heldFor
    ++ [flag x.trappedRaised, byte x.attempt.code] ++ s.millisLeft x.confirmEnd
    ++ [byte x.detectorA.code, byte x.detectorB.code, byte x.switches, flag (s.inContact z),
      optByte ((s.serving (.zone z)).map Fin.val), byte (s.roomCount z), flag (s.uncertain.get z),
      optReason x.isolationRefusal, s.zoneOutput z, flag (s.chimeRequest z)]
    ++ (s.zoneSettings z).bytes

/-- READ ZONE (R120). -/
def execReadZone (index : BitVec 16) (s : State) : Host.Outcome State Fault Refusal :=
  .next (s.report fun u => readRecord index u fun z v => .ok (v.zonePayload z))

/-! ### ISOLATE ZONE (R118) and RESTORE ZONE (R119) -/

/-- A detector in ALARM or the manual release active (R118, R119). -/
def Zone.detecting (x : Zone) : Bool := x.detectorAlarm || x.manualRelease

/-- The checks of ISOLATE ZONE after the level (R118). -/
def State.isolationRefusal (s : State) (z : Room) : Option Reason :=
  if !s.inContact z then some .stationLost
  else if (s.zone z).detecting then some .detectorActive
  else if (s.zone z).state ≠ .normal then some .notNormal
  else none

/-- ISOLATE ZONE for a zone (R118). A refusal is written into the record, and the write is marked even where the cause
is the one that stood (R166). -/
def State.isolateZoneAt (z : Room) (s : State) : Answer × State :=
  if !s.keyOn then (⟨.privilege, []⟩, s)
  else
    match s.isolationRefusal z with
    | some r => (.refusedFor r, (s.setZone z { s.zone z with isolationRefusal := some r }).mark (.zone z))
    | none => (.ok, s.changeZone z { s.zone z with state := .isolated, isolationRefusal := none })

/-- ISOLATE ZONE (R118). -/
def execIsolateZone (index : BitVec 16) (s : State) : Host.Outcome State Fault Refusal :=
  .next (s.serve fun u => onRecord index u State.isolateZoneAt)

/-- RESTORE ZONE for a zone (R119). -/
def State.restoreZoneAt (z : Room) (s : State) : Answer × State :=
  if !s.keyOn then (⟨.privilege, []⟩, s)
  else if (s.zone z).state ≠ .isolated then (.refusedFor .wrongState, s)
  else if (s.zone z).detecting then (.refusedFor .detectorActive, s)
  else (.ok, s.changeZone z { s.zone z with state := .normal })

/-- RESTORE ZONE (R119). -/
def execRestoreZone (index : BitVec 16) (s : State) : Host.Outcome State Fault Refusal :=
  .next (s.serve fun u => onRecord index u State.restoreZoneAt)

/-! ### RESET ZONE (R117) -/

/-- The states that RESET ZONE leaves (R117). -/
def ZoneState.resettable : ZoneState → Bool
  | .firstAlarm | .discharged | .releaseFailed => true
  | .normal | .isolated | .predischarge | .held | .releasing => false

/-- RESET ZONE needs ENGINEER level from DISCHARGED and RELEASE_FAILED (R117). -/
def ZoneState.resetNeedsKey : ZoneState → Bool
  | .discharged | .releaseFailed => true
  | .normal | .isolated | .firstAlarm | .predischarge | .held | .releasing => false

/-- What the detectors and the manual release refuse (R117 check 4). -/
def Zone.blocksReset (x : Zone) : Bool :=
  decide (x.detectorA ≠ .normal) || decide (x.detectorB ≠ .normal) || (x.state.resetNeedsKey && x.manualRelease)

/-- The zone returns to NORMAL; from RELEASE_FAILED the cause of SUPPRESSION_FAILED ends (R117). -/
def State.resetTaken (s : State) (z : Room) : State :=
  let t := s.changeZone z (s.zone z).reset
  if (s.zone z).state = .releaseFailed then t.endCause (keySuppressionFailed z) else t

/-- RESET ZONE for a zone (R117). -/
def State.resetZoneAt (z : Room) (s : State) : Answer × State :=
  if !(s.zone z).state.resettable then (.refusedFor .wrongState, s)
  else if (s.zone z).state.resetNeedsKey ∧ !s.keyOn then (⟨.privilege, []⟩, s)
  else if !s.inContact z then (.refusedFor .stationLost, s)
  else if (s.zone z).blocksReset then (.refusedFor .detectorActive, s)
  else (.ok, s.resetTaken z)

/-- RESET ZONE (R117). -/
def execResetZone (index : BitVec 16) (s : State) : Host.Outcome State Fault Refusal :=
  .next (s.serve fun u => onRecord index u State.resetZoneAt)

/-! ### Timer expiries -/

/-- COUNTDOWN_END (R105, R107). -/
def execCountdownEnd (z : Room) (s : State) : Host.Outcome State Fault Refusal :=
  .next (s.fieldEvent fun u =>
    if (u.zone z).state = .predischarge ∧ u.reached (u.zone z).countdown then u.countdownEnds z else u)

/-- PULSE_END (R112). -/
def execPulseEnd (z : Room) (s : State) : Host.Outcome State Fault Refusal :=
  .next (s.fieldEvent fun u => if u.reached (u.zone z).pulseEnd then u.setZone z (u.zone z).endPulse else u)

/-- CONFIRM_END (R113). -/
def execConfirmEnd (z : Room) (s : State) : Host.Outcome State Fault Refusal :=
  .next (s.fieldEvent fun u =>
    if (u.zone z).state = .releasing ∧ u.reached (u.zone z).confirmEnd then u.confirmEnds z else u)

/-! ### The hold limit (R110) -/

/-- HOLD_LIMIT_REACHED (R110): the count that brings held_for to the hold limit with trapped raised clear, and the raise of
TRAPPED, in one event (log 5). -/
def execHoldLimitReached (z : Room) (s : State) : Host.Outcome State Fault Refusal :=
  .next (s.fieldEvent fun u =>
    if (u.zone z).limitReached (u.zoneSettings z).holdLimit then
      (u.setZone z (u.zone z).trapped).raise (keyTrapped z) none
    else u)

end Sys2Proof.Machine
end

