-- ==== Sys2Proof/Machine/Dispatch.lean ====
section
/-! DEFINITION. `exec`: one arm per command, each a direct call of its meaning. -/

namespace Sys2Proof.Machine

def exec (i : Instr) (s : State) : Host.Outcome State Fault Refusal :=
  match i with
  | .powerOn cause => Sys2Proof.Machine.execPowerOn cause s
  | .resetInput => Sys2Proof.Machine.execResetInput s
  | .imageLoad => Sys2Proof.Machine.execImageLoad s
  | .supplyLow => Sys2Proof.Machine.execSupplyLow s
  | .supplyRestart => Sys2Proof.Machine.execSupplyRestart s
  | .keyValidated on => Sys2Proof.Machine.execKeyValidated on s
  | .uptimeSecond => Sys2Proof.Machine.execUptimeSecond s
  | .holdLimitReached zone => Sys2Proof.Machine.execHoldLimitReached zone s
  | .minuteBoundary => Sys2Proof.Machine.execMinuteBoundary s
  | .referenceEdge => Sys2Proof.Machine.execReferenceEdge s
  | .referenceGap => Sys2Proof.Machine.execReferenceGap s
  | .provingPeriodEnd => Sys2Proof.Machine.execProvingPeriodEnd s
  | .commitCompletion verified => Sys2Proof.Machine.execCommitCompletion verified s
  | .windowStart => Sys2Proof.Machine.execWindowStart s
  | .windowEnd => Sys2Proof.Machine.execWindowEnd s
  | .windowDiscard first => Sys2Proof.Machine.execWindowDiscard first s
  | .badFrame frame => Sys2Proof.Machine.execBadFrame frame s
  | .readStatus => Sys2Proof.Machine.execReadStatus s
  | .takeChanges => Sys2Proof.Machine.execTakeChanges s
  | .setAttention setMask clearMask => Sys2Proof.Machine.execSetAttention setMask clearMask s
  | .restart => Sys2Proof.Machine.execRestart s
  | .findPermit credential => Sys2Proof.Machine.execFindPermit credential s
  | .readPermit index => Sys2Proof.Machine.execReadPermit index s
  | .writePermit index fields => Sys2Proof.Machine.execWritePermit index fields s
  | .amendPermit index fields => Sys2Proof.Machine.execAmendPermit index fields s
  | .retirePermit index => Sys2Proof.Machine.execRetirePermit index s
  | .readRoster index => Sys2Proof.Machine.execReadRoster index s
  | .readOccupant index => Sys2Proof.Machine.execReadOccupant index s
  | .retireOccupant index => Sys2Proof.Machine.execRetireOccupant index s
  | .confirmVacant index => Sys2Proof.Machine.execConfirmVacant index s
  | .grantEntry index permit => Sys2Proof.Machine.execGrantEntry index permit s
  | .releaseExit index => Sys2Proof.Machine.execReleaseExit index s
  | .readDoor index => Sys2Proof.Machine.execReadDoor index s
  | .setDoorMode index mode => Sys2Proof.Machine.execSetDoorMode index mode s
  | .resetDoor index => Sys2Proof.Machine.execResetDoor index s
  | .clearCounts index => Sys2Proof.Machine.execClearCounts index s
  | .readZone index => Sys2Proof.Machine.execReadZone index s
  | .isolateZone index => Sys2Proof.Machine.execIsolateZone index s
  | .restoreZone index => Sys2Proof.Machine.execRestoreZone index s
  | .resetZone index => Sys2Proof.Machine.execResetZone index s
  | .readAlarm index => Sys2Proof.Machine.execReadAlarm index s
  | .acknowledgeAlarm index => Sys2Proof.Machine.execAcknowledgeAlarm index s
  | .clearAlarm index => Sys2Proof.Machine.execClearAlarm index s
  | .clearLostCount => Sys2Proof.Machine.execClearLostCount s
  | .readClock => Sys2Proof.Machine.execReadClock s
  | .setClock minute second => Sys2Proof.Machine.execSetClock minute second s
  | .readWindow index => Sys2Proof.Machine.execReadWindow index s
  | .writeWindow index fields => Sys2Proof.Machine.execWriteWindow index fields s
  | .readStation index => Sys2Proof.Machine.execReadStation index s
  | .readSetting index => Sys2Proof.Machine.execReadSetting index s
  | .writeSetting index value => Sys2Proof.Machine.execWriteSetting index value s
  | .commitSettings => Sys2Proof.Machine.execCommitSettings s
  | .poll loop => Sys2Proof.Machine.execPoll loop s
  | .goodAnswer station answer => Sys2Proof.Machine.execGoodAnswer station answer s
  | .missedAnswer station cause => Sys2Proof.Machine.execMissedAnswer station cause s
  | .presentationDecided loop => Sys2Proof.Machine.execPresentationDecided loop s
  | .pairWindowEnd room => Sys2Proof.Machine.execPairWindowEnd room s
  | .travelLimit door => Sys2Proof.Machine.execTravelLimit door s
  | .lapse door => Sys2Proof.Machine.execLapse door s
  | .heldOpenLimit door => Sys2Proof.Machine.execHeldOpenLimit door s
  | .reboltDelayEnd door => Sys2Proof.Machine.execReboltDelayEnd door s
  | .countdownEnd zone => Sys2Proof.Machine.execCountdownEnd zone s
  | .pulseEnd zone => Sys2Proof.Machine.execPulseEnd zone s
  | .confirmEnd zone => Sys2Proof.Machine.execConfirmEnd zone s
  | .watchDeadline slot => Sys2Proof.Machine.execWatchDeadline slot s
  | .loneWorkerRepeat slot => Sys2Proof.Machine.execLoneWorkerRepeat slot s
  | .answerSent => Sys2Proof.Machine.execAnswerSent s
  | .supplyBelowRetention => Sys2Proof.Machine.execSupplyBelowRetention s

end Sys2Proof.Machine
end

