-- ==== Sys2Proof/Machine/Step.lean ====
section
/-! DEFINITION. One step: the command at the front of the queue, or, on an empty queue, the passage of a millisecond
(log 2). -/

namespace Sys2Proof.Machine

/-- The uptime counter does not leave its present second here: UPTIME_SECOND moves it into the next (log 2). -/
def State.idle (s : State) : State :=
  if s.running ∧ s.uptimeMs % 1000 < 999 ∧ s.uptimeSec < Config.uptimeSecMax then { s with uptimeMs := s.uptimeMs + 1 }
  else s

/-- One step of the part. -/
def step (s : State) : Host.Outcome State Fault Refusal :=
  match s.pending with
  | [] => .next s.idle
  | c :: rest => exec c { s with pending := rest }

/-- The state with the command that a word spells put at the front of the queue; no row of the table has bits. -/
def State.withFetchWord (s : State) (nbits w : Nat) : State :=
  match decodeTableWord nbits w with
  | none => s
  | some c => { s with pending := c :: s.pending }

end Sys2Proof.Machine
end

