-- ==== Sys2Proof/Safety.lean ====
section
/-! DEFINITION. What the statements are stated with: the parts of the state that a frame names, what a state must be for
a request or a field event to be taken, and the properties that every step keeps. -/

namespace Sys2Proof

namespace Machine

/-! ### Frames -/

/-- A part of the state, as the frame of a statement names it. Together the parts are the whole state, but for the
raises handed within an event, which are the model's own (log 8). -/
inductive Part where
  | permits | records | watches | lists | uncertain | pairs | doors | stations | notes | loops | zones | alarms
  | overflow | lostCount | uptime | wall | decision | reference | framer | changes | attentionMask
  | supplyRestarted | settingsDefaulted | commitFailed | settings | image | commit | power | supply | keyOn | queue
deriving DecidableEq, Repr

/-- An occupant record without its watch. -/
def Occupant.unwatched (x : Occupant) : Occupant := { x with watch := none }

/-- The part is the same in both states. -/
def Part.same : Part → State → State → Prop
  | .permits, s, t => t.permits = s.permits
  | .records, s, t => ∀ o, (t.occupant o).map Occupant.unwatched = (s.occupant o).map Occupant.unwatched
  | .watches, s, t => ∀ o, t.watch o = s.watch o
  | .lists, s, t => t.lists = s.lists
  | .uncertain, s, t => t.uncertain = s.uncertain
  | .pairs, s, t => t.pairs = s.pairs
  | .doors, s, t => t.doors = s.doors
  | .stations, s, t => t.stations = s.stations
  | .notes, s, t => t.notes = s.notes
  | .loops, s, t => t.loops = s.loops
  | .zones, s, t => t.zones = s.zones
  | .alarms, s, t => t.alarms = s.alarms
  | .overflow, s, t => t.overflow = s.overflow
  | .lostCount, s, t => t.lostCount = s.lostCount
  | .uptime, s, t => t.uptimeMs = s.uptimeMs
  | .wall, s, t => t.wall = s.wall
  | .decision, s, t => t.decision = s.decision
  | .reference, s, t => t.reference = s.reference
  | .framer, s, t => t.framer = s.framer
  | .changes, s, t => t.changes = s.changes
  | .attentionMask, s, t => t.attentionMask = s.attentionMask
  | .supplyRestarted, s, t => t.supplyRestarted = s.supplyRestarted
  | .settingsDefaulted, s, t => t.settingsDefaulted = s.settingsDefaulted
  | .commitFailed, s, t => t.commitFailed = s.commitFailed
  | .settings, s, t => t.settings = s.settings
  | .image, s, t => t.image = s.image
  | .commit, s, t => t.commit = s.commit
  | .power, s, t => t.power = s.power
  | .supply, s, t => t.supply = s.supply
  | .keyOn, s, t => t.keyOn = s.keyOn
  | .queue, s, t => t.pending = s.pending

/-- Between the two states nothing changes but the parts listed. -/
def OnlyChanges (parts : List Part) (s t : State) : Prop :=
  ∀ p, p ∉ parts → p.same s t

/-! ### When a command is taken -/

/-- The part runs and takes the request in the present window; no raise is left over from an event, as after every
step of the running part (`RaisesTaken`). -/
structure State.Ready (s : State) : Prop where
  running : s.running = true
  receiving : s.framer.step = .receiving
  noRaise : s.handedRaises = []

/-- The part runs with its supply NORMAL, and no raise is left over. -/
structure State.Live (s : State) : Prop where
  running : s.running = true
  normal : s.inLow = false
  noRaise : s.handedRaises = []

/-- The command answers with an answer and changes nothing else of the part (R166). -/
def OnlyAnswers (c : Instr) (s : State) (a : Answer) : Prop :=
  exec c s = .next (s.answering a)

/-- The command is taken: it answers, changes nothing but the parts listed, its answer and marks, and the state after
it has a property. -/
def Takes (c : Instr) (s : State) (a : Answer) (parts : List Part) (after : State → Prop) : Prop :=
  ∃ t, exec c s = .next t ∧ t.framer = ⟨.answering, some a⟩ ∧ OnlyChanges (.framer :: .changes :: parts) s t ∧ after t

/-- The event is taken: it changes nothing but the parts listed and marks, and the state after it has a property. -/
def Happens (c : Instr) (s : State) (parts : List Part) (after : State → Prop) : Prop :=
  ∃ t, exec c s = .next t ∧ OnlyChanges (.changes :: parts) s t ∧ after t

/-! ### Operands that a request accepts -/

end Machine

open Machine

/-- The values of a WRITE PERMIT that R8 check 1 accepts: a credential, a strongroom, a listed class, hours and state
other than RETIRING, a present pin of four digits, a present uses above 0 and no unknown flag. -/
structure PermitFields.Writable (f : PermitFields) : Prop where
  credential : f.credential ≠ 0
  rooms : f.rooms ≠ 0
  cls : f.cls.toNat < 3
  hours : f.hours.toNat < 2
  state : f.state.toNat < 2
  flags : f.flags.toNat < 16
  pin : f.flags.getLsbD 0 = true → f.pin.toNat ≤ 9999
  uses : f.flags.getLsbD 2 = true → f.uses ≠ 0

/-- The masks and replacements of an AMEND PERMIT that R10 check 3 accepts on a permit. -/
structure AmendFields.Consistent (a : AmendFields) (x : Permit) : Prop where
  flags : a.flagSet &&& a.flagClear = 0
  known : (a.flagSet ||| a.flagClear).toNat < 8
  rooms : a.roomSet &&& a.roomClear = 0
  some_room : (x.rooms ||| a.roomSet) &&& ~~~a.roomClear ≠ 0
  uses : a.usesSel.toNat < 2 ∨ (a.usesSel = 2 ∧ a.uses ≠ 0)
  expiry : a.expirySel.toNat < 3
  pin : a.pinSel.toNat < 2 ∨ (a.pinSel = 2 ∧ a.pin.toNat ≤ 9999)

/-- The fields of a WRITE WINDOW that form a window (R153 check 3). -/
structure WindowFields.IsWindow (f : WindowFields) : Prop where
  form : f.form = 1
  some_day : f.weekdays ≠ 0
  days : f.weekdays.toNat < 128
  start : f.start.toNat ≤ 1439
  stop : f.stop.toNat ≤ 1440
  later : f.start.toNat < f.stop.toNat

namespace Machine

/-- The minute that the expiry test reads (R16): the minute that the wall clock holds, also in the instant of a boundary that
is still to be taken (R149), and one more for each boundary whose instant has passed, before its sweep is taken (R18;
log 36). -/
def State.minuteRead (s : State) (w : WallClock) : Nat :=
  w.minute + (1000 * w.seconds + s.uptimeMs % 1000 - 1) / 60000

/-- A permit passes checks 2 to 6 of an outer entry at a strongroom (R28): it is ACTIVE, not expired, not used up, and
entitled to the strongroom at this hour. The minute of the expiry test is log 36's. -/
structure State.Entitled (s : State) (r : Room) (m : Permit) : Prop where
  active : m.state = .active
  expiry : m.expiry = none ∨ ∃ e w, m.expiry = some e ∧ s.wall = some w ∧ s.minuteRead w < e
  uses : m.uses ≠ some 0
  room : m.rooms.getLsbD r.val = true
  hours : s.decision = .day ∨ (m.hours = .anyHours ∧ m.pin.isSome = true)

/-- A strongroom takes `n` more people at its outer door, the last under this permit (checks 8 to 11, 13 and 14, R29 and
R30): the zone and the door admit, the permit is neither on the roster nor in a pending pair, the room has the places,
the door is free and the inner door SECURED. -/
structure State.TakesAtDoor (s : State) (r : Room) (p : PermitIx) (m : Permit) (n : Nat) : Prop where
  zone : (s.zone r).state = .normal ∨ (s.zone r).state = .isolated
  mode : (s.door (outerDoor r)).effMode = .normal
  noFault : ∀ c, (s.door (outerDoor r)).state ≠ .fault c
  unlinked : m.occupant = none
  notPending : ∀ u h, s.pair u = some h → h.permit ≠ p
  place : (s.list r).length + n ≤ (s.zoneSettings r).occupancyLimit
  noGrant : (s.door (outerDoor r)).grant = none
  noExit : (s.door (outerDoor r)).pendingExit = none
  inner : (s.door (innerDoor r)).state = .secured

/-- The two-person rule applies at the outer door of a strongroom (R32). -/
def State.NeedsPair (s : State) (r : Room) : Prop :=
  (s.zoneSettings r).twoPerson = true ∧ s.decision = .afterHours ∧ s.escorted r = false

/-- A permit passes checks 2 to 6 and 8 to 16 of an outer entry, alone (R28 to R32): entitled, with a place at the door,
a VISITOR escorted, and the two-person rule not applying. -/
structure State.Admissible (s : State) (r : Room) (p : PermitIx) (m : Permit) : Prop where
  entitled : s.Entitled r m
  place : s.TakesAtDoor r p m 1
  escort : m.cls ≠ .visitor ∨ s.escorted r = true
  alone : ¬ s.NeedsPair r

/-- The first condition of a list that fails gives the reason (R28, R38, R42). -/
def FirstFailing : List (Prop × Reason) → Reason → Prop
  | [], _ => False
  | (passes, r) :: rest, x => (¬ passes ∧ x = r) ∨ (passes ∧ FirstFailing rest x)

/-- Checks 2 to 6 of outer entry at a strongroom, in order (R28, R16; the minute of the expiry test: log 36). -/
def State.checksOfPermit (s : State) (r : Room) (m : Permit) : List (Prop × Reason) :=
  [(m.state = .active, .suspended),
    (m.expiry = none ∨ s.wall.isSome = true, .timeUnset),
    (∀ e w, m.expiry = some e → s.wall = some w → s.minuteRead w < e, .expired),
    (m.uses ≠ some 0, .usedUp),
    (m.rooms.getLsbD r.val = true, .notPermitted),
    (s.decision = .day ∨ (m.hours = .anyHours ∧ m.pin.isSome = true), .hours)]

/-- Checks 8 to 15 of outer entry at a strongroom, in order, for `n` people of whom the last has this permit; `company`
says that a pair would be completed with a holder who is no VISITOR (R29 to R31). -/
def State.checksAtDoor (s : State) (r : Room) (p : PermitIx) (m : Permit) (n : Nat) (company : Prop) :
    List (Prop × Reason) :=
  [((s.zone r).state = .normal ∨ (s.zone r).state = .isolated, .zoneAlarm),
    ((s.door (outerDoor r)).effMode = .normal ∧ ∀ c, (s.door (outerDoor r)).state ≠ .fault c, .doorMode),
    (m.occupant = none ∧ ∀ u h, s.pair u = some h → h.permit ≠ p, .alreadyInside),
    ((s.list r).length + n ≤ (s.zoneSettings r).occupancyLimit, .roomFull),
    (n ≤ ((List.finRange 64).filter fun o => (s.occupant o).isNone).length, .rosterFull),
    ((s.door (outerDoor r)).grant = none ∧ (s.door (outerDoor r)).pendingExit = none, .doorBusy),
    ((s.door (innerDoor r)).state = .secured, .interlock),
    (m.cls ≠ .visitor ∨ s.escorted r = true ∨ company, .escortNeeded)]

/-- Checks 1 to 6 of inner entry at a strongroom, in order (R38). -/
def State.checksInside (s : State) (r : Room) (c : Credential) : List (Prop × Reason) :=
  [((s.lookup c).isSome = true, .unknown),
    ((s.slotIn c r [.vestibule]).isSome = true, .notInVestibule),
    ((s.zone r).state = .normal ∨ (s.zone r).state = .isolated, .zoneAlarm),
    ((s.door (innerDoor r)).effMode = .normal ∧ ∀ f, (s.door (innerDoor r)).state ≠ .fault f, .doorMode),
    ((s.door (innerDoor r)).grant = none ∧ (s.door (innerDoor r)).pendingExit = none, .doorBusy),
    ((s.door (outerDoor r)).state = .secured, .interlock)]

/-- The pending pair still stands at a decision at its door: the two-person rule applies, and the held permit passes
checks 2 to 6 (R37). -/
def State.PairStands (s : State) (r : Room) (h : PendingPair) : Prop :=
  s.NeedsPair r ∧ ∃ k, s.permit h.permit = some k ∧ s.Entitled r k

/-- The second state is the first after the revalidation of the pending pair at a strongroom's outer door (R37). -/
def State.Revalidated (s : State) (r : Room) (u : State) : Prop :=
  ((∀ h, s.pair r = some h → s.PairStands r h) → u = s)
    ∧ ((∃ h, s.pair r = some h ∧ ¬ s.PairStands r h) → u = s.setPair r none)

/-- The pending pair at the door is held by a permit that is no VISITOR's (R31). -/
def State.Company (s : State) (r : Room) : Prop :=
  ∃ h k, s.pair r = some h ∧ s.permit h.permit = some k ∧ k.cls ≠ .visitor

/-- Two numbers of four digits differ as a PIN and its duress PIN: the last digit is raised by one, 9 wrapping to 0
(R14). -/
def IsDuressPin (pin : Nat) (v : BitVec 16) : Prop :=
  v.toNat / 10 = pin / 10 ∧ v.toNat % 10 = (pin % 10 + 1) % 10

/-- A presented PIN passes check 7 of a permit, with or without the DURESS outcome (R14). -/
def Permit.PinPasses (m : Permit) (presented : Option (BitVec 16)) (duress : Bool) : Prop :=
  (m.pin = none ∧ duress = false)
    ∨ ∃ pin v, m.pin = some pin ∧ presented = some v
      ∧ ((v.toNat = pin ∧ duress = false) ∨ (IsDuressPin pin v ∧ duress = true))

/-- The permit after a PIN that passes: its failures are 0 if a PIN was asked (R15). -/
def Permit.pinTaken (m : Permit) : Permit := if m.pin.isSome then { m with pinFailures := 0 } else m

/-- The permit linked to a slot with one use taken; the last use makes it RETIRING (R4, R13). -/
def Permit.takenBy (m : Permit) (o : Slot) : Permit :=
  match m.uses with
  | none => { m with occupant := some o }
  | some 1 => { m with occupant := some o, uses := some 0, state := .retiring }
  | some n => { m with occupant := some o, uses := some (n - 1) }

/-- DURESS taken between two states (R34, R40, R126, R127): a RAISED record with the key names the permit, or the raise
was lost. -/
def State.DuressTaken (s : State) (key : AlarmKey) (p : PermitIx) (t : State) : Prop :=
  (∃ i a, t.alarm i = some a ∧ a.key = key ∧ a.permit = some p ∧ a.acknowledged = false ∧ a.cause = none)
    ∨ (t.overflow = true ∧ t.lostCount = min (s.lostCount + 1) 255)

/-- The parts that a raise of DURESS may change. -/
def duressParts (duress : Bool) : List Part := if duress then [.watches, .alarms, .overflow, .lostCount] else []

/-- The station has its presentation decided: it goes to ANSWERING with the decision and the mark, and no other station
changes (R27, R89). -/
structure State.AnswersWith (s t : State) (st : StationId) (d : Decision) (mark : Bool) : Prop where
  station : t.station st = { s.station st with handshake := .answering d mark }
  others : ∀ u, u ≠ st → t.station u = s.station u
  note : t.note st = ⟨false, false⟩
  otherNotes : ∀ u, u ≠ st → t.note u = s.note u

/-- An entry presentation is denied, and the denial written into the door's last denial (R27). -/
structure State.Denies (s t : State) (st : StationId) (d : DoorNo) (q : Presentation) (x : Reason) : Prop where
  answer : s.AnswersWith t st (.deny x) q.mark
  denial : t.door d = { s.door d with lastDenial := some ⟨x, q.credential⟩ }
  doors : ∀ e, e ≠ d → t.door e = s.door e

/-- The record is a LONE_WORKER record that names the slot (R139). -/
def Alarm.NamesLoneWorker (a : Alarm) (o : Slot) : Prop := a.key.kind = .loneWorker ∧ a.key.occupant = some o

/-- The watch of a slot is sounding (R142): at stage 1 or 2, or at stage 3 while a LONE_WORKER record that names the slot has
its cause present or no record names it. -/
def State.Sounds (s : State) (o : Slot) : Prop :=
  ∃ w, s.watch o = some w ∧ (w.stage = .one ∨ w.stage = .two ∨ (w.stage = .three ∧
    ((∃ i a, s.alarm i = some a ∧ a.NamesLoneWorker o ∧ a.cause = some true)
      ∨ ∀ i a, s.alarm i = some a → ¬ a.NamesLoneWorker o)))

/-- A check-in of a slot acts on its watch (R140): below stage 3, or at stage 3 with no LONE_WORKER record that names the
slot, the watch goes to stage 0 with a full period; named, the cause of the record ends. -/
structure State.CheckedIn (s : State) (o : Slot) (r : Room) (t : State) : Prop where
  unwatched : s.watch o = none → t.watch o = none
  restarted : ∀ w, s.watch o = some w →
    (w.stage ≠ .three ∨ ∀ i a, s.alarm i = some a → ¬ a.NamesLoneWorker o) →
    (t.watch o).map (fun v => (v.stage, v.deadline))
      = some (.zero, some (s.uptimeMs + 60000 * (s.zoneSettings r).checkIn))
  ended : ∀ w, s.watch o = some w → w.stage = .three →
    ∀ i a, t.alarm i = some a → a.NamesLoneWorker o → a.cause ≠ some true

/-- The admission unit holds a presentation of a loop, undecided, from a station (R27), and no raise is left over. -/
structure State.Holds (s : State) (l : LoopNo) (st : StationId) (q : Presentation) : Prop where
  running : s.running = true
  noRaise : s.handedRaises = []
  station : s.handedStation l = some st
  handed : (s.station st).handshake = .handed q

/-! ### Doors and alarms -/

/-- The bolt is already kept withdrawn in effective HOLD_OPEN (R62): the door is UNBOLTING, RELEASED or OPEN without a
grant. -/
def State.HeldUnbolted (s : State) (d : DoorNo) : Prop :=
  (s.door d).effMode = .holdOpen ∧ (s.door d).grant = none
    ∧ ((s.door d).state = .unbolting ∨ (s.door d).state = .released ∨ (s.door d).state = .opened)

/-- An exit can begin (R62): no grant, no FAULT STATION_LOST, and the partner SECURED or the mode EGRESS or SEALED. -/
def State.CanBegin (s : State) (d : DoorNo) : Prop :=
  (s.door d).grant = none ∧ (s.door d).state ≠ .fault .stationLost
    ∧ ((s.door (partner d)).state = .secured ∨ (s.door d).effMode = .egress ∨ (s.door d).effMode = .sealed)

/-- The partner of the door is SECURED, or its effective mode is EGRESS or SEALED (R52). -/
def State.InterlockFree (s : State) (d : DoorNo) : Prop :=
  (s.door (partner d)).state = .secured ∨ (s.door d).effMode = .egress ∨ (s.door d).effMode = .sealed

/-- When the held-open limit of a door that enters OPEN runs out: never in HOLD_OPEN and OUT_OF_SERVICE (R55). -/
def State.openUntil (s : State) (d : DoorNo) (x : Door) : Option Nat :=
  if x.effMode = .holdOpen ∨ x.effMode = .outOfService then none
  else some (s.uptimeMs + 1000 * (s.doorSettings d).heldOpenLimit)

/-- The record of a door, RELEASED under a grant (R52, R53, R60). -/
def State.releasedWith (s : State) (d : DoorNo) (x : Door) (kind : GrantKind) (slots : List Slot) : Door :=
  { x with
    state := .released
    grant := some ⟨kind, slots, some (s.uptimeMs + 1000 * (s.doorSettings d).grantTime)⟩
    stepDeadline := some (s.uptimeMs + 1000 * (s.doorSettings d).grantTime) }

/-- The record of a door that goes to BOLTING (R57). -/
def State.boltingFrom (s : State) (d : DoorNo) (x : Door) : Door :=
  { x with
    state := .bolting
    grant := none
    stepDeadline := some (s.uptimeMs + 1000 * (s.doorSettings d).travelLimit) }

/-- The record of a door at rest in a state, with no grant and no step deadline. -/
def Door.atRest (x : Door) (st : DoorState) : Door := { x with state := st, grant := none, stepDeadline := none }

/-- A grant that begins at a door takes the record `x` to `y`, by the state of `x` (R52, R60). A bolt that already reads
WITHDRAWN is taken in the event of entry (R51). -/
structure State.Begun (s : State) (d : DoorNo) (kind : GrantKind) (slots : List Slot) (x y : Door) : Prop where
  shut : x.state = .secured ∨ x.state = .bolting →
    y = if x.bolt = some .withdrawn then s.releasedWith d x kind slots
      else { x with
        state := .unbolting
        grant := some ⟨kind, slots, none⟩
        stepDeadline := some (s.uptimeMs + 1000 * (s.doorSettings d).travelLimit) }
  closed : x.state = .released ∨ x.state = .closedWait → y = s.releasedWith d x kind slots
  moving : x.state = .opened ∨ x.state = .unbolting → y = { x with grant := some ⟨kind, slots, none⟩ }
  fault : x.state = .fault .boltJam ∨ x.state = .fault .sensorConflict →
    y = if x.bolt ≠ some .withdrawn then
        { x with
          grant := some ⟨kind, slots, none⟩
          stepDeadline := some (s.uptimeMs + 1000 * (s.doorSettings d).travelLimit) }
      else if x.contact = some .opened then
        { x with state := .opened, grant := some ⟨kind, slots, none⟩, stepDeadline := s.openUntil d x }
      else s.releasedWith d x kind slots

/-- The kind of an exit that names the slots (R62, R63). -/
def exitOf (slots : List Slot) : GrantKind := if slots = [] then .anonymousExit else .exit

/-- The pending exit of a door without a grant is tested, and begins as soon as it could (R63), also at a door RELEASED in
HOLD_OPEN (the model's choice, log 44). -/
structure State.TestsPending (s : State) (d : DoorNo) (x y : Door) : Prop where
  waits : x.pendingExit = none ∨ x.state = .fault .stationLost ∨ ¬ s.InterlockFree d → y = x
  begins : ∀ e, x.pendingExit = some e → x.state ≠ .fault .stationLost → s.InterlockFree d →
    s.Begun d (exitOf e.slots) e.slots { x with pendingExit := none } y

/-- A mode change sends the door to BOLTING (R53, R54, R65, R67): without a grant, RELEASED where the mode leaves HOLD_OPEN
or becomes LOCKDOWN, OUT_OF_SERVICE, EGRESS or SEALED, or UNBOLTING where the mode leaves HOLD_OPEN. -/
def Door.ReboltsOn (x : Door) (m : DoorMode) : Prop :=
  x.grant = none
    ∧ ((x.state = .released
        ∧ (x.effMode = .holdOpen ∨ m = .lockdown ∨ m = .outOfService ∨ m = .egress ∨ m = .sealed))
      ∨ (x.state = .unbolting ∧ x.effMode = .holdOpen))

/-- The step deadline of a door record whose effective mode becomes `m` (R50, R54, R55). In OPEN the held-open timer is
removed on entering HOLD_OPEN and OUT_OF_SERVICE and starts in full on leaving them, once it has run out too (the model's
reading, log 37); RELEASED without a grant in HOLD_OPEN has no deadline; every other keeps its deadline. -/
def State.deadlineIn (s : State) (d : DoorNo) (x : Door) (m : DoorMode) : Option Nat :=
  if x.state = .opened then
    if m = .holdOpen ∨ m = .outOfService then none
    else if x.effMode = .holdOpen ∨ x.effMode = .outOfService then
      some (s.uptimeMs + 1000 * (s.doorSettings d).heldOpenLimit)
    else x.stepDeadline
  else if x.state = .released ∧ x.grant = none ∧ m = .holdOpen then none
  else x.stepDeadline

/-- The record of a door in its new effective mode, where the change moves its state no further (R65). -/
def State.inMode (s : State) (d : DoorNo) (x : Door) (m : DoorMode) : Door :=
  { x with effMode := m, stepDeadline := s.deadlineIn d x m }

/-- A door record in effective HOLD_OPEN withdraws, or waits, by its state and its partner's (R68). A bolt that already
reads WITHDRAWN is taken in the event of entry to UNBOLTING (R51). -/
structure State.WithdrawsFor (s : State) (d : DoorNo) (x y : Door) : Prop where
  begins : (s.door (partner d)).state = .secured → x.grant = none → x.pendingExit = none →
    x.state = .secured ∨ x.state = .bolting →
    y = if x.bolt = some .withdrawn then x.atRest .released
      else { x with
        state := .unbolting
        stepDeadline := some (s.uptimeMs + 1000 * (s.doorSettings d).travelLimit) }
  waits : (s.door (partner d)).state ≠ .secured ∨ x.grant ≠ none ∨ x.pendingExit ≠ none
      ∨ (x.state ≠ .secured ∧ x.state ≠ .bolting) → y = x

/-- What reaching SECURED does at the two doors of a strongroom, where `x` is the record of the door as it stands SECURED
(R57, R63, R68): its own pending exit begins if it can, else its partner's, else a waiting HOLD_OPEN withdraws, at the
door or at its partner; no other door changes. -/
structure State.Secures (s : State) (d : DoorNo) (x : Door) (t : State) : Prop where
  others : ∀ e, e ≠ d → e ≠ partner d → t.door e = s.door e
  quiet : x.pendingExit = none → x.effMode ≠ .holdOpen → (s.door (partner d)).pendingExit = none →
    (s.door (partner d)).effMode ≠ .holdOpen → t.door d = x ∧ t.door (partner d) = s.door (partner d)
  own : ∀ e, x.pendingExit = some e → s.InterlockFree d →
    s.Begun d (exitOf e.slots) e.slots { x with pendingExit := none } (t.door d)
  partners : ∀ e, x.pendingExit = none ∨ ¬ s.InterlockFree d → (s.door (partner d)).pendingExit = some e →
    (s.door (partner d)).grant = none → (s.door (partner d)).state ≠ .fault .stationLost →
    t.door d = x ∧ s.Begun (partner d) (exitOf e.slots) e.slots { s.door (partner d) with pendingExit := none }
      (t.door (partner d))
  holdOpen : x.pendingExit = none → x.effMode = .holdOpen → (s.door (partner d)).state = .secured →
    (s.door (partner d)).pendingExit = none → x.bolt ≠ some .withdrawn →
    t.door d = { x with
      state := .unbolting
      stepDeadline := some (s.uptimeMs + 1000 * (s.doorSettings d).travelLimit) }
  partnerHoldOpen : x.pendingExit = none → x.effMode ≠ .holdOpen → (s.door (partner d)).pendingExit = none →
    (s.door (partner d)).effMode = .holdOpen → (s.door (partner d)).grant = none →
    (s.door (partner d)).state = .secured ∨ (s.door (partner d)).state = .bolting →
    t.door d = x ∧ t.door (partner d) =
      if (s.door (partner d)).bolt = some .withdrawn then (s.door (partner d)).atRest .released
      else { s.door (partner d) with
        state := .unbolting
        stepDeadline := some (s.uptimeMs + 1000 * (s.doorSettings (partner d)).travelLimit) }

/-- A door with the record `x`, given a base mode, takes the effective mode `m` that the base mode and the zone make (R65).
Where the zone forces the mode, or the mode stays, the record is kept; leaving HOLD_OPEN, or RELEASED without a grant in
LOCKDOWN and OUT_OF_SERVICE, it goes to BOLTING, where a pending exit is tested (R57, R63) and a bolt that reads THROWN
makes it SECURED (R51; taken first, log 19); in HOLD_OPEN it withdraws or waits (R68). No other door changes, but for
what reaching SECURED sets off at the partner. -/
structure State.TakesMode (s : State) (d : DoorNo) (x : Door) (m : DoorMode) (t : State) : Prop where
  kept : m = x.effMode → t.door d = x
  changed : m ≠ x.effMode → m ≠ .holdOpen → ¬ x.ReboltsOn m → t.door d = s.inMode d x m
  rebolts : m ≠ x.effMode → m ≠ .holdOpen → x.ReboltsOn m → x.bolt ≠ some .thrown →
    s.TestsPending d (s.boltingFrom d { x with effMode := m }) (t.door d)
  secured : m ≠ x.effMode → m ≠ .holdOpen → x.ReboltsOn m → x.bolt = some .thrown →
    s.Secures d ({ x with effMode := m }.atRest .secured) t
  holdOpen : m ≠ x.effMode → m = .holdOpen → s.WithdrawsFor d (s.inMode d x m) (t.door d)
  others : m = x.effMode ∨ ¬ x.ReboltsOn m ∨ x.bolt ≠ some .thrown → ∀ e, e ≠ d → t.door e = s.door e

/-- No alarm record with the key has its cause present. -/
def CauseEnded (key : AlarmKey) (t : State) : Prop :=
  ∀ i a, t.alarm i = some a → a.key = key → a.cause ≠ some true

/-- The grant is of kind ENTRY or REMOTE_ENTRY, whose end without passage retires ADMITTED records (R44). -/
def Grant.Retires (g : Grant) : Prop := g.kind = .entry ∨ g.kind = .remoteEntry

/-- The door's pending exit names no slot of the grant. -/
def Door.NamesApart (x : Door) (g : Grant) : Prop := ∀ e, x.pendingExit = some e → ∀ o, o ∈ e.slots → o ∉ g.slots

/-- The ADMITTED records that a grant names leave the roster where the grant ends without passage (R44). -/
def State.RetiresAdmitted (s : State) (g : Grant) (t : State) : Prop :=
  ∀ o x, o ∈ g.slots → s.occupant o = some x → x.phase = .admitted → t.occupant o = none

/-- A grant's passage moves a record in this phase at the door, to the phase given or off the roster (R43). -/
def passageMoves : GrantKind → Bool → Phase → Option (Option Phase)
  | .entry, true, .admitted | .remoteEntry, true, .admitted => some (some .vestibule)
  | .innerEntry, false, .vestibule => some (some .inside)
  | .exit, false, .inside => some (some .leaving)
  | .exit, true, .vestibule | .exit, true, .leaving => some none
  | _, _, _ => none

/-- The completed passage of a grant at a door moves each record it names by its row, leaves a named record in any other
phase, and moves no other record (R43). -/
structure State.Passed (s : State) (kind : GrantKind) (d : DoorNo) (slots : List Slot) (t : State) : Prop where
  moved : ∀ o x y, o ∈ slots → s.occupant o = some x → passageMoves kind (isOuter d) x.phase = some y →
    (t.occupant o).map Occupant.phase = y
  left : ∀ o x, o ∈ slots → s.occupant o = some x → passageMoves kind (isOuter d) x.phase = none →
    (t.occupant o).map Occupant.phase = some x.phase
  unnamed : ∀ o, o ∉ slots → (t.occupant o).map Occupant.phase = (s.occupant o).map Occupant.phase

/-- An exit that names the slots is merged in CLOSED_WAIT (R64, R56): the passage of the present grant is complete, and
the door is RELEASED with the merged exit as its grant. A slot that has left the roster at that passage is not named, and
the kind stays (log 22). -/
structure State.MergedInWait (s : State) (d : DoorNo) (g : Grant) (slots : List Slot) (t : State) : Prop where
  door : t.door d = { s.releasedWith d (s.door d) (exitOf slots) (slots.filter fun o => (t.occupant o).isSome) with
    passages := (s.door d).passages + 1
    pendingExit := (t.door d).pendingExit }
  passed : s.Passed g.kind d g.slots t

/-- RESET DOOR is taken (R71). -/
def State.Resettable (s : State) (d : DoorNo) : Prop :=
  (s.door d).grant = none
    ∧ ((s.door d).state = .fault .boltJam
      ∨ ((s.door d).state = .fault .sensorConflict ∧ (s.door d).bolt ≠ some .conflict))

/-- The level suffices for a SET DOOR MODE (R70 check 2). -/
def State.MayChangeMode (s : State) (d : DoorNo) (m : BaseMode) : Prop :=
  s.keyOn = true ∨ (m ≠ .holdOpen ∧ m ≠ .outOfService ∧ (s.door d).baseMode ≠ .outOfService)

/-- HOLD_OPEN may be set at the door (R70 check 3). -/
def State.MayHoldOpen (s : State) (d : DoorNo) : Prop :=
  ((s.zone (roomOf d)).state = .normal ∨ (s.zone (roomOf d)).state = .isolated) ∧ (s.door d).state = .secured
    ∧ (s.door d).pendingExit = none ∧ (s.door (partner d)).state = .secured
    ∧ (s.door (partner d)).baseMode ≠ .holdOpen

/-- A raise taken between two states (R126, R127): a record with its key stands RAISED with its cause present, or the
raise was lost, the overflow condition stands and the lost count has gone up, stopping at 255. -/
def State.RaisesOrLoses (s : State) (key : AlarmKey) (t : State) : Prop :=
  (∃ i a, t.alarm i = some a ∧ a.key = key ∧ a.acknowledged = false ∧ a.cause = some true)
    ∨ (t.overflow = true ∧ t.lostCount = min (s.lostCount + 1) 255)

/-- The strongroom's list holds a record whose permit has the class. -/
def State.HasClass (s : State) (r : Room) (k : PermitClass) : Prop :=
  ∃ o x m, o ∈ s.list r ∧ s.occupant o = some x ∧ s.permit x.permit = some m ∧ m.cls = k

/-- A strongroom is unescorted: its list holds a VISITOR record, and none of STAFF or GUARD (R143). -/
def State.Unescorted (s : State) (r : Room) : Prop :=
  s.HasClass r .visitor ∧ ¬ s.HasClass r .staff ∧ ¬ s.HasClass r .guard

/-- The identity key of UNESCORTED, which names the strongroom (R124, R143). -/
def unescortedKey (r : Room) : AlarmKey := ⟨.unescorted, some r, none, none, none⟩

/-- UNESCORTED of a strongroom is neither raised nor has its cause ended between two states: a record with the key in the
second stood in the first, as it is if it carried the key there. -/
def State.UnescortedKept (s : State) (r : Room) (t : State) : Prop :=
  ∀ i a, t.alarm i = some a → a.key = unescortedKey r →
    ∃ b, s.alarm i = some b ∧ b.key.kind = .unescorted ∧ b.key.room = some r ∧ (b.key = unescortedKey r → a = b)

/-- What an event makes of UNESCORTED, from the condition before it to the condition after it (R143): it is raised, or
the raise lost among those lost in the event; its cause ends; or neither. -/
structure State.UnescortedCompared (s : State) (r : Room) (before after : Prop) (t : State) : Prop where
  raised : ¬ before → after →
    (∃ i a, t.alarm i = some a ∧ a.key = unescortedKey r ∧ a.acknowledged = false ∧ a.cause = some true)
      ∨ (t.overflow = true ∧ min (s.lostCount + 1) 255 ≤ t.lostCount)
  ended : before → ¬ after → CauseEnded (unescortedKey r) t
  same : (before ↔ after) → s.UnescortedKept r t

/-- LONE_WORKER of a slot taken between two states (R139): placed, the watch stands at stage 3 without a deadline and a
record names the slot; lost, its deadline is the given instant. -/
def State.LoneWorkerTaken (s : State) (o : Slot) (r : Room) (ifLost : Nat) (t : State) : Prop :=
  ((∃ i a, t.alarm i = some a ∧ a.key = ⟨.loneWorker, some r, none, some o, none⟩ ∧ a.acknowledged = false
      ∧ a.cause = some true) ∧ (t.watch o).map (fun v => (v.stage, v.deadline)) = some (.three, none))
    ∨ (t.overflow = true ∧ t.lostCount = min (s.lostCount + 1) 255
      ∧ (t.watch o).map (fun v => (v.stage, v.deadline)) = some (.three, some ifLost))

/-! ### Clock -/

/-- The window holds a wall minute number (R149, R152): the weekday is in its set, and the minute of the day lies from
start up to, and not at, end. -/
def HoursWindow.covers (x : HoursWindow) (minute : Nat) : Bool :=
  x.weekdays.getLsbD (minute % 10080 / 1440) && decide (x.start ≤ minute % 10080 % 1440)
    && decide (minute % 10080 % 1440 < x.stop)

/-- DAY if a window holds the minute, else AFTER_HOURS (R155). -/
def hoursAt (c : Settings) (minute : Nat) : HoursDecision :=
  if c.windows.any fun x => x.any fun y => y.covers minute then .day else .afterHours

/-- What an expiry sweep for a minute makes of the permits (R17): an expired permit that is not RETIRING is removed, or
becomes RETIRING if it is linked; every other is left. The pending pair of a removed permit is dropped (R5). -/
def State.SweptFor (s : State) (minute : Nat) (t : State) : Prop :=
  ∀ p,
    (s.permit p = none → t.permit p = none)
      ∧ (∀ x, s.permit p = some x →
        ((∀ e, x.expiry = some e → minute < e) ∨ x.state = .retiring → t.permit p = some x)
          ∧ (∀ e, x.expiry = some e → e ≤ minute → x.state ≠ .retiring →
            (x.occupant = none → t.permit p = none ∧ ∀ r h, t.pair r = some h → h.permit ≠ p)
              ∧ (x.occupant.isSome = true → t.permit p = some { x with state := .retiring })))

/-! ### Settings and start-up -/

/-- A setting number that R176 assigns to no item. -/
def UnassignedSetting (n : Nat) : Prop :=
  (64 ≤ n ∧ n < 256) ∨ (256 ≤ n ∧ n < 512 ∧ 5 ≤ n % 8) ∨ (512 ≤ n ∧ n < 640 ∧ n % 8 = 7) ∨ (640 ≤ n ∧ n < 768) ∨ 773 ≤ n

/-- The range of a numbered item (R75, R121, R176). A station entry is no number. -/
def SettingItem.Takes (v : Nat) : SettingItem → Prop
  | .station _ => False
  | .door _ .failMode => v ≤ 1
  | .door _ .travelLimit => 1 ≤ v ∧ v ≤ 12
  | .door _ .grantTime => 3 ≤ v ∧ v ≤ 30
  | .door _ .reboltDelay => 1 ≤ v ∧ v ≤ 10
  | .door _ .heldOpenLimit => 10 ≤ v ∧ v ≤ 600
  | .zone _ .predischarge => 10 ≤ v ∧ v ≤ 120
  | .zone _ .resume => 10 ≤ v ∧ v ≤ 60
  | .zone _ .holdLimit => 60 ≤ v ∧ v ≤ 900
  | .zone _ .confirmWindow => 2 ≤ v ∧ v ≤ 10
  | .zone _ .occupancyLimit => 1 ≤ v ∧ v ≤ 12
  | .zone _ .twoPerson => v ≤ 1
  | .zone _ .checkIn => 5 ≤ v ∧ v ≤ 60
  | .global .missLimit => 2 ≤ v ∧ v ≤ 8
  | .global .rosterHigh => 1 ≤ v ∧ v ≤ 64
  | .global .pairWindow => 10 ≤ v ∧ v ≤ 60
  | .global .grace1 => 30 ≤ v ∧ v ≤ 300
  | .global .grace2 => 30 ≤ v ∧ v ≤ 300

/-- A value that is no station entry (R178 check 4, 11): a role other than UNUSED, DOOR, ZONE and MUSTER, a door number above
31, a zone number above 15, a number with UNUSED or MUSTER, a last flag other than 0 and 1, or a fourth byte other than
0. -/
def MalformedEntry (v : BitVec 32) : Prop :=
  4 ≤ v.toNat / 2 ^ 24
    ∨ (v.toNat / 2 ^ 24 = 1 ∧ 32 ≤ v.toNat / 2 ^ 16 % 256)
    ∨ (v.toNat / 2 ^ 24 = 2 ∧ 16 ≤ v.toNat / 2 ^ 16 % 256)
    ∨ ((v.toNat / 2 ^ 24 = 0 ∨ v.toNat / 2 ^ 24 = 3) ∧ v.toNat / 2 ^ 16 % 256 ≠ 0)
    ∨ 2 ≤ v.toNat / 2 ^ 8 % 256 ∨ v.toNat % 256 ≠ 0

/-- The entry of an address once the entry `e` is written at `st`: a last flag set there is cleared on every other slot of
the loop (R79). -/
def State.entryAfter (s : State) (st : StationId) (e : StationEntry) (u : StationId) : StationEntry :=
  if u = st then e
  else if e.last = true ∧ loopOf u = loopOf st then { s.entry u with last := false }
  else s.entry u

/-- An address is in its loop's poll cycle under a station table: no lower slot of the loop carries the last flag (R80). -/
def Polled (entry : StationId → StationEntry) (u : StationId) : Prop :=
  ∀ v, loopOf v = loopOf u → v < u → (entry v).last = false

/-- Writing the entry `e` at `st` takes the address `u` out of service (R79): its role changes, or the last flag moves so
that `u`, with a role other than UNUSED, leaves the poll cycle. -/
def State.LeavesService (s : State) (st : StationId) (e : StationEntry) (u : StationId) : Prop :=
  (s.entryAfter st e u).role ≠ (s.entry u).role
    ∨ ((s.entry u).role ≠ .unused ∧ Polled s.entry u ∧ ¬ Polled (s.entryAfter st e) u)

/-- Another address serves the door or zone of a role (R79). -/
def State.ServedElsewhere (s : State) (st : StationId) (r : Role) : Prop :=
  r ≠ .unused ∧ r ≠ .muster ∧ ∃ u, u ≠ st ∧ (s.entry u).role = r

/-- The power-on values of every block over a working copy (R177 and its table). -/
structure State.AtPowerOn (s : State) (c : Settings) (defaulted : Bool) : Prop where
  permits : ∀ p, s.permit p = none
  slots : ∀ o, s.occupant o = none
  lists : ∀ r, s.list r = []
  uncertain : ∀ r, s.uncertain.get r = true
  pairs : ∀ r, s.pair r = none
  doors : ∀ d, s.door d = ⟨.fault .stationLost, .normal, .normal, none, none, none, 0, 0, 0, none, none, none⟩
  stations : ∀ t, s.station t = ⟨.unseen, 0, none, none, .idle⟩
  loops : ∀ l, (s.loops.get l).nextSlot = 0
  zones : ∀ z, s.zone z = ⟨.normal, ⟨false, false, false, false, false⟩, none, 0, false, .none, none, none, .normal,
    .normal, false, false, false, none, false, false, 0⟩
  alarms : ∀ i, s.alarm i = none
  overflow : s.overflow = false
  lostCount : s.lostCount = 0
  uptime : s.uptimeMs = 0
  wall : s.wall = none
  decision : s.decision = .afterHours
  reference : s.reference.state = .backup
  framer : s.framer = ⟨.idle, none⟩
  changes : ∀ i, s.changes.has i = true
  mask : s.attentionMask = 0b00000011
  status : s.supplyRestarted = false ∧ s.commitFailed = false ∧ s.settingsDefaulted = defaulted
  commit : s.commit = none
  supply : s.supply = .normal
  key : s.keyOn = false
  settings : s.settings = c
  lines : s.lines = ⟨false, false, true⟩

/-! ### Zones -/

/-- A detector is in ALARM, or the manual release is active (R118, R119). -/
def Zone.Detects (x : Zone) : Prop := x.detectorA = .alarm ∨ x.detectorB = .alarm ∨ x.manualRelease = true

/-- ISOLATE ZONE is refused and its cause written into the zone's isolation refusal (R118), which is marked (R166). -/
def State.IsolationRefused (s : State) (index : BitVec 16) (z : Room) (r : Reason) (cause : List Byte) : Prop :=
  Takes (.isolateZone index) s ⟨.refused, cause⟩ [.zones] fun t =>
    t.zone z = { s.zone z with isolationRefusal := some r } ∧ (∀ y, y ≠ z → t.zone y = s.zone y)
      ∧ t.changes.has (.zone z) = true

/-- A good answer of a PRESENT station validates a code: its candidate is the code, its inputs were another one, and no
presentation is under way (R86, R87). -/
structure State.Validates (s : State) (st : StationId) (role : Role) (code old : Byte) : Prop where
  live : s.Live
  supervised : s.supervised st = true
  serves : (s.entry st).role = role
  listed : codeListed role code = true
  present : (s.station st).presence = .present
  idle : (s.station st).handshake = .idle
  candidate : (s.station st).candidate = some code
  inputs : (s.station st).inputs = some old

/-- The code a PRESENT station sends is the one its inputs hold, so that the answer hands nothing to the owners. -/
structure State.Repeats (s : State) (st : StationId) (code : Byte) : Prop where
  live : s.Live
  supervised : s.supervised st = true
  listed : codeListed (s.entry st).role code = true
  present : (s.station st).presence = .present
  inputs : (s.station st).inputs = some code

/-- The record of a zone with a set of inputs (R98 step 1). -/
def Zone.reading (x : Zone) (i : ZoneInputs) : Zone :=
  { x with
    detectorA := i.detectorA
    detectorB := i.detectorB
    abort := i.abort
    manualRelease := i.manualRelease
    pressure := i.pressure }

/-! ### Watches -/

/-- An event between two states evaluates the watch of a record (R136): the hours decision changed, a record of its
strongroom came into or out of INSIDE or left the roster, or its permit's watch_always changed. -/
def State.Reconsiders (s t : State) (y : Occupant) : Prop :=
  t.decision ≠ s.decision ∨ t.insideSlots y.room ≠ s.insideSlots y.room ∨ (∃ v, v ∈ s.list y.room ∧ v ∉ t.list y.room)
    ∨ t.watchAlways y.permit ≠ s.watchAlways y.permit

/-- The watch of a record after an event, from the one before it, below stage 3 (R137): evaluated, it starts at stage 0
with a full period, runs on or ends as the record qualifies; otherwise it runs on. -/
structure State.Evaluated (s t : State) (before : Option Watch) (y : Occupant) : Prop where
  starts : s.Reconsiders t y → t.qualifies y = true → before = none →
    y.watch.map (fun v => (v.stage, v.deadline))
      = some (.zero, some (t.uptimeMs + 60000 * (t.zoneSettings y.room).checkIn))
  runs : s.Reconsiders t y → t.qualifies y = true → before ≠ none → y.watch = before
  ends : s.Reconsiders t y → t.qualifies y = false → y.watch = none
  kept : ¬ s.Reconsiders t y → y.watch = before

/-! ### Properties that every step keeps -/

/-- The effective mode of every door is what its zone's state and its base mode make it (R65). -/
def ModesComputed (s : State) : Prop :=
  ∀ d, (s.door d).effMode = effectiveMode (s.zone (roomOf d)).state (s.door d).baseMode

/-- A fire output of the zone is on. -/
def Zone.fire (x : Zone) : Bool := x.mainFire || x.reserveFire

/-- The fields of a zone record stand as R97 gives them: hold reasons in HELD only and never empty there, a countdown in
PREDISCHARGE only, a confirm end in RELEASING only, a pulse end while a fire output is on, and fire outputs in RELEASING
only (R107). -/
structure Zone.Sound (x : Zone) : Prop where
  held : x.state = .held ↔ x.holdReasons ≠ .empty
  countdown : x.state = .predischarge ↔ x.countdown.isSome = true
  confirm : x.confirmEnd.isSome = true → x.state = .releasing
  pulse : x.pulseEnd.isSome = x.fire
  fire : x.fire = true → x.state = .releasing

/-- Every zone record is sound. -/
def ZonesSound (s : State) : Prop := ∀ z, (s.zone z).Sound

/-- The hold reasons of every zone in HELD are the conditions that stand (R106, R109). -/
def HoldReasonsCurrent (s : State) : Prop :=
  ∀ z, (s.zone z).state = .held → (s.zone z).holdReasons = s.conditions z

/-- Permits, records, lists and pending pairs name each other as the manual's laws say: no two permits share a credential
(R2); a record and its permit are linked, and a RETIRING permit is linked (R4); a pending pair's permit is present,
unlinked and in one pair only (R35, R37); a strongroom's list holds each of its records once, and no more than its
occupancy limit (R21). -/
structure RosterSound (s : State) : Prop where
  unique : ∀ p q m n, s.permit p = some m → s.permit q = some n → m.credential = n.credential → p = q
  numbered : ∀ p m, s.permit p = some m → m.credential ≠ 0
  linked : ∀ o x, s.occupant o = some x → ∃ m, s.permit x.permit = some m ∧ m.occupant = some o
  named : ∀ p m o, s.permit p = some m → m.occupant = some o → ∃ x, s.occupant o = some x ∧ x.permit = p
  retiring : ∀ p m, s.permit p = some m → m.state = .retiring → m.occupant.isSome = true
  held : ∀ r h, s.pair r = some h → ∃ m, s.permit h.permit = some m ∧ m.occupant = none
  apart : ∀ r u h k, s.pair r = some h → s.pair u = some k → h.permit = k.permit → r = u
  listed : ∀ r o, o ∈ s.list r ↔ ∃ x, s.occupant o = some x ∧ x.room = r
  once : ∀ r, (s.list r).Nodup
  limit : ∀ r, (s.list r).length ≤ (s.zoneSettings r).occupancyLimit

/-- No raise waits between events (log 8). -/
def RaisesTaken (s : State) : Prop := s.handedRaises = []

/-- What the last line of R107 asks of a strongroom before its gas may be released. -/
structure State.ReleaseSafe (s : State) (z : Room) : Prop where
  vacant : s.list z = []
  certain : s.uncertain.get z = false
  noAbort : (s.zone z).abort = false
  outerClosed : (s.door (outerDoor z)).contact = some .closed
  innerClosed : (s.door (innerDoor z)).contact = some .closed
  inContact : s.inContact z = true

end Machine

end Sys2Proof
end

