-- ==== Sys2Proof/Certificates/Slice0/Obligations.lean ====
section
/-! DEFINITION. The statements for the provers: what each command does, by the manual's rules, and what every step keeps.
A statement about a request says the answer, the fields written and, by `Takes` and `OnlyAnswers`, that nothing else
changes but marks; one about an event says it by `Happens`. -/

open Sys2Proof Sys2Proof.Machine

/-! ### The queue and every command -/

/-- A step takes the command at the front of the queue and runs it on the rest. -/
def Obligations.StepRunsFrontCommand : Prop :=
  ∀ (c : Instr) (rest : List Instr) (s : State), s.pending = c :: rest → step s = exec c { s with pending := rest }

/-- Every command is taken in every state: none ends in a fault or a refusal (log 29, the model's choice). On an empty queue a running part lets one millisecond pass, but does not enter the
next uptime second, which is UPTIME_SECOND's to do; a part that is held, or stands at the end of a second, stays (log 2,
the model's choice). -/
def Obligations.EveryStepCompletes : Prop :=
  (∀ (c : Instr) (s : State), ∃ t, exec c s = .next t)
    ∧ ∀ s : State, s.pending = [] →
      (s.running = true → s.uptimeMs % 1000 < 999 → s.uptimeMs / 1000 < 4294967295 →
          step s = .next { s with uptimeMs := s.uptimeMs + 1 })
        ∧ (s.running = false → step s = .next s)
        ∧ (s.uptimeMs % 1000 = 999 → step s = .next s)
        ∧ (4294967295 ≤ s.uptimeMs / 1000 → step s = .next s)

/-! ### Host link frames and windows (R160 to R165) -/

/-- The frame written for a request is read back as that request, with every operand (R161, R168). -/
def Obligations.FrameRoundTrip : Prop :=
  ∀ (i : Instr) (bs : List Byte), i.frame? = some bs → readFrame bs = .request i

/-- The framer rejects a frame in the cases of R162 and in no other, and a rejected frame has no effect but the answer
BAD_FRAME. -/
def Obligations.BadFramesRejected : Prop :=
  (∀ (code i1 i0 count check : Byte) (payload more : List Byte), payload.length = count.toNat → count.toNat ≤ 48 →
      (readFrame ([leadLong, code, i1, i0, count] ++ payload ++ check :: more) = .bad ↔
        byteSum ([leadLong, code, i1, i0, count] ++ payload ++ [check]) ≠ 0 ∨ payloadCount code ≠ some count.toNat))
    ∧ (∀ (code i1 i0 count : Byte) (more : List Byte), 48 < count.toNat →
      readFrame ([leadLong, code, i1, i0, count] ++ more) = .bad)
    ∧ (∀ (code index check : Byte) (more : List Byte),
      (readFrame ([leadShort, code, index, check] ++ more) = .bad ↔
        byteSum [leadShort, code, index, check] ≠ 0 ∨ payloadCount code ≠ some 0))
    ∧ (∀ (s : State) (frame : List Byte), s.Ready → readFrame frame = .bad →
      OnlyAnswers (.badFrame frame) s ⟨.badFrame, []⟩)

/-- The window steps: a window's start, its end in every step, a first byte that is no lead byte, and the last byte of
the answer (R160, R161, R164, R165). While the part is held a window is taken as DISCARDING (R177). -/
def Obligations.WindowSteps : Prop :=
  ∀ s : State,
    (s.framer.step = .idle → s.running = true →
        exec .windowStart s = .next { s with framer := ⟨.receiving, none⟩ })
      ∧ (s.framer.step = .idle → s.running = false →
        exec .windowStart s = .next { s with framer := ⟨.discarding, none⟩ })
      ∧ exec .windowEnd s = .next { s with framer := ⟨.idle, none⟩ }
      ∧ (∀ b : Byte, s.framer.step = .receiving → b ≠ 0xC3 → b ≠ 0xC4 →
        exec (.windowDiscard b) s = .next { s with framer := ⟨.discarding, none⟩ })
      ∧ (s.framer.step = .answering → exec .answerSent s = .next { s with framer := ⟨.done, none⟩ })

/-! ### The host link's own requests (R170 to R174) -/

/-- READ STATUS answers the status record and clears SUPPLY_RESTARTED, which it reports as it stood (R173, 11). That the
change-set size reported does not count the mark of STATUS which this clearing makes is the model's choice (log 40). -/
def Obligations.ReadStatusAnswersAndClears : Prop :=
  ∀ s : State, s.Ready →
    Takes .readStatus s
      ⟨.ok, [byte (bit 0 s.settingsDefaulted + bit 1 s.commitFailed + bit 2 s.commit.isSome
            + bit 3 (decide (s.settings.rosterHigh ≤ s.totalCount)) + bit 4 s.overflow + bit 5 s.supplyRestarted
            + bit 6 s.wall.isNone),
          byte (s.lostStations 0), byte (s.lostStations 1), byte (s.lostStations 2), byte (s.lostStations 3),
          byte s.lostCount, flag s.keyOn, s.attentionMask] ++ num2 s.changes.members.length⟩
      [.supplyRestarted] fun t =>
        t.supplyRestarted = false
          ∧ t.changes = { s.changes with status := s.changes.status || s.supplyRestarted }

/-- TAKE CHANGES reports and removes the first twenty identities in take order, and nothing else (R170). Take order is
the order of the identities' numbers (11). -/
def Obligations.TakeChangesInOrder : Prop :=
  (∀ s : State, s.Ready →
    Takes .takeChanges s
      ⟨.ok, byte (s.changes.members.take 20).length :: (s.changes.members.take 20).flatMap (fun i => num2 i.code)
          ++ num2 (s.changes.members.length - (s.changes.members.take 20).length)⟩ []
      fun t => ∀ i, t.changes.has i = (s.changes.has i && decide (i ∉ s.changes.members.take 20)))
    ∧ ∀ c : ChangeSet, (∀ i, i ∈ c.members ↔ c.has i = true) ∧ (c.members.map Identity.code).Pairwise (· < ·)

/-- SET ATTENTION: a kind in both masks is refused BAD_VALUE; otherwise the mask takes the set-mask and loses the
clear-mask, and the answer carries it; the change set is not changed, and ATTN follows the new mask (R171). RESTART
puts all 714 identities into the change set and sets the default mask, so that ATTN is asserted; every other block is
untouched (R174). In LOW the line holds its value (R183). -/
def Obligations.AttentionMaskAndRestart : Prop :=
  (∀ (s : State) (a b : Byte), s.Ready →
      (a &&& b ≠ 0 → OnlyAnswers (.setAttention a b) s ⟨.badValue, []⟩)
        ∧ (a &&& b = 0 →
          Takes (.setAttention a b) s ⟨.ok, [(s.attentionMask ||| a) &&& ~~~b]⟩ [.attentionMask] fun t =>
            t.attentionMask = (s.attentionMask ||| a) &&& ~~~b ∧ t.changes = s.changes
              ∧ (s.inLow = false → (t.lines.attn = true ↔
                ∃ i, t.changes.has i = true ∧ t.attentionMask.getLsbD (i.code / 8192) = true))))
    ∧ (∀ s : State, s.Ready →
      Takes .restart s ⟨.ok, []⟩ [.attentionMask] fun t =>
        (∀ i, t.changes.has i = true) ∧ t.changes.members.length = 714 ∧ t.attentionMask = 0b00000011
          ∧ (s.inLow = false → t.lines.attn = true))
    ∧ defaultMask = 0b00000011

/-- The direct lines while the supply is NORMAL: GUARD while an alarm record is RAISED or the overflow condition stands
(R134), SUPPRESSION_ACTIVE while a zone is in one of five states (R101), ATTN while an identity of an enabled kind is
in the change set (R172). The outputs, in every state: the bolt drive and the indicator of a door by its state, grant, mode
and fail mode (R51), its buzzer by the alarm records and the sounding watches (R135, R142), the CHIME request (R142), the
sounder and the beacon of a zone by its state (R100), and the muster indicator by SUPPRESSION_ACTIVE (R93). The output field
of a station packs those of its role into one byte (11). -/
def Obligations.LinesAndOutputsFollowRecords : Prop :=
  (∀ s : State, s.running = true → s.inLow = false →
    (s.lines.guard = true ↔ (∃ i a, s.alarm i = some a ∧ a.acknowledged = false) ∨ s.overflow = true)
      ∧ (s.lines.suppressionActive = true ↔ ∃ z, (s.zone z).state = .predischarge ∨ (s.zone z).state = .held
          ∨ (s.zone z).state = .releasing ∨ (s.zone z).state = .discharged ∨ (s.zone z).state = .releaseFailed)
      ∧ (s.lines.attn = true ↔ ∃ i, s.changes.has i = true ∧ s.attentionMask.getLsbD (i.code / 8192) = true))
    ∧ (∀ (s : State) (d : DoorNo),
      (boltDrive (s.door d) (s.doorSettings d) = .withdraw ↔
          (s.door d).state = .unbolting ∨ (s.door d).state = .released ∨ (s.door d).state = .opened
            ∨ (s.door d).state = .closedWait
            ∨ ((s.door d).state = .fault .stationLost ∧ (s.doorSettings d).failMode = .failRelease)
            ∨ (((s.door d).state = .fault .boltJam ∨ (s.door d).state = .fault .sensorConflict)
              ∧ (s.door d).grant.isSome = true))
        ∧ (indicator (s.door d) = .red ↔
          (s.door d).state = .secured ∨ (s.door d).state = .unbolting ∨ (s.door d).state = .bolting)
        ∧ (indicator (s.door d) = .green ↔
          ((s.door d).state = .released ∨ (s.door d).state = .opened ∨ (s.door d).state = .closedWait)
            ∧ ((s.door d).grant.isSome = true ∨ (s.door d).effMode = .holdOpen))
        ∧ (s.buzzer d = true ↔
          (∃ i a, s.alarm i = some a ∧ (a.key.kind = .forcedDoor ∨ a.key.kind = .doorHeld) ∧ a.key.door = some d
              ∧ a.acknowledged = false ∧ a.cause = some true)
            ∨ (isOuter d = false ∧ ∃ o, o ∈ s.list (roomOf d) ∧ s.Sounds o)))
    ∧ (∀ (s : State) (z : Room),
      (s.chimeRequest z = true ↔
          ∃ o w, o ∈ s.list z ∧ s.Sounds o ∧ s.watch o = some w ∧ (w.stage = .two ∨ w.stage = .three))
        ∧ s.sounder z = (match (s.zone z).state with
          | .normal | .isolated => if s.chimeRequest z then .chime else .off
          | .firstAlarm => .chime
          | .predischarge | .held | .releasing => .predischarge
          | .discharged | .releaseFailed => .released)
        ∧ ((s.zone z).state.beacon = true ↔
          (s.zone z).state ≠ .normal ∧ (s.zone z).state ≠ .isolated ∧ (s.zone z).state ≠ .firstAlarm)
        ∧ s.zoneOutput z = byte ((match s.sounder z with
            | .off => 0 | .chime => 1 | .predischarge => 2 | .released => 3)
          + bit 2 (s.zone z).state.beacon + bit 3 (s.zone z).mainFire + bit 4 (s.zone z).reserveFire))
    ∧ (∀ s : State, (s.lines.suppressionActive = true → s.musterIndicator = .amber)
        ∧ (s.lines.suppressionActive = false → s.musterIndicator = .green))
    ∧ ∀ (s : State) (st : StationId),
      (∀ d, (s.entry st).role = .door d →
          s.stationOutput st = byte (bit 0 (decide (boltDrive (s.door d) (s.doorSettings d) = .withdraw))
            + 2 * (match indicator (s.door d) with | .red => 0 | .green => 1 | .amber => 2) + bit 3 (s.buzzer d)))
        ∧ (∀ z, (s.entry st).role = .zone z → s.stationOutput st = s.zoneOutput z)
        ∧ ((s.entry st).role = .muster →
          s.stationOutput st = byte (match s.musterIndicator with | .red => 0 | .green => 2 | .amber => 4))
        ∧ ((s.entry st).role = .unused → s.stationOutput st = 0)

/-! ### Permits (R1 to R17) -/

/-- FIND PERMIT: BAD_VALUE for the number 0; NOT_FOUND if no present permit carries the number; else OK with the index,
the state and whether the permit is linked (R6; that no other permit carries the number is R2). READ PERMIT: BAD_VALUE
above 511, NOT_FOUND at a free position, else the nineteen bytes of the record, in which the pin's value is kept back
(R7, 11). -/
def Obligations.FindAndReadPermitAnswer : Prop :=
  (∀ (s : State) (c : Credential), s.Ready →
      (c = 0 → OnlyAnswers (.findPermit c) s ⟨.badValue, []⟩)
        ∧ (c ≠ 0 → (∀ p x, s.permit p = some x → x.credential ≠ c) → OnlyAnswers (.findPermit c) s ⟨.notFound, []⟩)
        ∧ (∀ p x, c ≠ 0 → s.permit p = some x → x.credential = c →
          (∀ q y, s.permit q = some y → y.credential = c → q = p) →
          OnlyAnswers (.findPermit c) s ⟨.ok, num2 p.val ++ [byte x.state.code, flag x.occupant.isSome]⟩))
    ∧ ∀ (s : State) (index : BitVec 16), s.Ready →
      (512 ≤ index.toNat → OnlyAnswers (.readPermit index) s ⟨.badValue, []⟩)
        ∧ (∀ p : PermitIx, index.toNat = p.val → s.permit p = none → OnlyAnswers (.readPermit index) s ⟨.notFound, []⟩)
        ∧ (∀ (p : PermitIx) (x : Permit), index.toNat = p.val → s.permit p = some x →
          OnlyAnswers (.readPermit index) s
            ⟨.ok, num3 x.credential.toNat ++ num2 x.holder.toNat ++ num2 x.rooms.toNat
              ++ [byte x.cls.code, byte x.hours.code, byte x.state.code,
                byte (bit 0 x.pin.isSome + bit 1 x.expiry.isSome + bit 2 x.uses.isSome + bit 3 x.watchAlways), 0, 0]
              ++ num3 (x.expiry.getD 0)
              ++ [byte (x.uses.getD 0), byte x.pinFailures, optByte (x.occupant.map Fin.val)]⟩)

/-- WRITE PERMIT: the refusals in their order, BAD_VALUE, then IN_USE for a linked permit, then DUPLICATE for a
credential held at another position (R8); taken, the position holds the written fields, with no PIN failures and no
link, every pending pair of the position is dropped (R9), and the position is marked, whatever it held (R169). No record
names an unlinked permit (R4). -/
def Obligations.WritePermitChecksAndReplaces : Prop :=
  (∀ (s : State) (index : BitVec 16) (f : PermitFields), s.Ready →
      (512 ≤ index.toNat ∨ ¬ f.Writable → OnlyAnswers (.writePermit index f) s ⟨.badValue, []⟩)
        ∧ (∀ p : PermitIx, index.toNat = p.val → f.Writable →
          ((∃ x, s.permit p = some x ∧ x.occupant.isSome = true) →
              OnlyAnswers (.writePermit index f) s ⟨.refused, [0x01]⟩)
            ∧ ((∀ x, s.permit p = some x → x.occupant = none) →
              (∃ q x, q ≠ p ∧ s.permit q = some x ∧ x.credential = f.credential) →
              OnlyAnswers (.writePermit index f) s ⟨.refused, [0x02]⟩)))
    ∧ ∀ (s : State) (index : BitVec 16) (f : PermitFields) (p : PermitIx), s.Ready → index.toNat = p.val → f.Writable →
        (∀ x, s.permit p = some x → x.occupant = none) →
        (∀ q x, q ≠ p → s.permit q = some x → x.credential ≠ f.credential) →
        (∀ o x, s.occupant o = some x → x.permit ≠ p) →
        Takes (.writePermit index f) s ⟨.ok, []⟩ [.permits, .pairs] fun t =>
          (∃ x, t.permit p = some x ∧ x.credential = f.credential ∧ x.holder = f.holder ∧ x.rooms = f.rooms
              ∧ byte x.cls.code = f.cls ∧ byte x.hours.code = f.hours ∧ byte x.state.code = f.state
              ∧ x.pin = (if f.flags.getLsbD 0 then some f.pin.toNat else none)
              ∧ x.expiry = (if f.flags.getLsbD 1 then some f.expiry.toNat else none)
              ∧ x.uses = (if f.flags.getLsbD 2 then some f.uses.toNat else none)
              ∧ x.watchAlways = f.flags.getLsbD 3 ∧ x.pinFailures = 0 ∧ x.occupant = none)
            ∧ (∀ q, q ≠ p → t.permit q = s.permit q)
            ∧ (∀ r, t.pair r = (s.pair r).filter fun h => decide (h.permit ≠ p))
            ∧ t.changes.has (.permit p) = true

/-- AMEND PERMIT: the refusals in their order, BAD_VALUE for the index, NOT_FOUND at a free position, BAD_VALUE for
masks and replacements, WRONG_STATE for SUSPEND on a RETIRING permit (R10); taken, flags, strongrooms and replacements
are applied to the permit as a whole (R11). -/
def Obligations.AmendPermitChecksAndApplies : Prop :=
  (∀ (s : State) (index : BitVec 16) (a : AmendFields), s.Ready →
      (512 ≤ index.toNat → OnlyAnswers (.amendPermit index a) s ⟨.badValue, []⟩)
        ∧ (∀ p : PermitIx, index.toNat = p.val →
          (s.permit p = none → OnlyAnswers (.amendPermit index a) s ⟨.notFound, []⟩)
            ∧ (∀ x, s.permit p = some x →
              (¬ a.Consistent x → OnlyAnswers (.amendPermit index a) s ⟨.badValue, []⟩)
                ∧ (a.Consistent x → x.state = .retiring → (a.flagSet.getLsbD 0 || a.flagClear.getLsbD 0) = true →
                  OnlyAnswers (.amendPermit index a) s ⟨.refused, [0x03]⟩))))
    ∧ ∀ (s : State) (index : BitVec 16) (a : AmendFields) (p : PermitIx) (x : Permit), s.Ready → index.toNat = p.val →
        s.permit p = some x → a.Consistent x →
        ¬ (x.state = .retiring ∧ (a.flagSet.getLsbD 0 || a.flagClear.getLsbD 0) = true) →
        Takes (.amendPermit index a) s ⟨.ok, []⟩ [.permits, .watches] fun t =>
          (∃ y, t.permit p = some y ∧ y.credential = x.credential ∧ y.holder = x.holder ∧ y.cls = x.cls
              ∧ y.occupant = x.occupant
              ∧ y.rooms = (x.rooms ||| a.roomSet) &&& ~~~a.roomClear
              ∧ (y.state = if a.flagSet.getLsbD 0 then .suspended else if a.flagClear.getLsbD 0 then .active else x.state)
              ∧ (y.hours = if a.flagSet.getLsbD 1 then .anyHours else if a.flagClear.getLsbD 1 then .dayOnly else x.hours)
              ∧ (y.watchAlways
                  = if a.flagSet.getLsbD 2 then true else if a.flagClear.getLsbD 2 then false else x.watchAlways)
              ∧ (y.uses = if a.usesSel = 0 then x.uses else if a.usesSel = 1 then none else some a.uses.toNat)
              ∧ (y.expiry = if a.expirySel = 0 then x.expiry else if a.expirySel = 1 then none else some a.expiry.toNat)
              ∧ (y.pin = if a.pinSel = 0 then x.pin else if a.pinSel = 1 then none else some a.pin.toNat)
              ∧ (y.pinFailures = if a.flagClear.getLsbD 0 = true ∨ a.pinSel ≠ 0 then 0 else x.pinFailures)
              ∧ (y.watchAlways = x.watchAlways → ∀ o, t.watch o = s.watch o))
            ∧ (∀ q, q ≠ p → t.permit q = s.permit q)
            ∧ (∀ o z, s.occupant o = some z → z.permit ≠ p → t.watch o = s.watch o)

/-- RETIRE PERMIT: an unlinked permit is removed at once, with its pending pairs; a linked one becomes RETIRING; one
already RETIRING is left (R5, R12). -/
def Obligations.RetirePermitRemovesOrRetires : Prop :=
  ∀ (s : State) (index : BitVec 16), s.Ready →
    (512 ≤ index.toNat → OnlyAnswers (.retirePermit index) s ⟨.badValue, []⟩)
      ∧ (∀ p : PermitIx, index.toNat = p.val → s.permit p = none →
        OnlyAnswers (.retirePermit index) s ⟨.notFound, []⟩)
      ∧ (∀ (p : PermitIx) (x : Permit), index.toNat = p.val → s.permit p = some x → x.state = .retiring →
        OnlyAnswers (.retirePermit index) s ⟨.ok, []⟩)
      ∧ (∀ (p : PermitIx) (x : Permit), index.toNat = p.val → s.permit p = some x → x.state ≠ .retiring →
        x.occupant.isSome = true →
        Takes (.retirePermit index) s ⟨.ok, []⟩ [.permits] fun t =>
          t.permit p = some { x with state := .retiring } ∧ ∀ q, q ≠ p → t.permit q = s.permit q)
      ∧ (∀ (p : PermitIx) (x : Permit), index.toNat = p.val → s.permit p = some x → x.state ≠ .retiring →
        x.occupant = none → (∀ o y, s.occupant o = some y → y.permit ≠ p) →
        Takes (.retirePermit index) s ⟨.ok, []⟩ [.permits, .pairs] fun t =>
          t.permit p = none ∧ (∀ q, q ≠ p → t.permit q = s.permit q)
            ∧ ∀ r, t.pair r = (s.pair r).filter fun h => decide (h.permit ≠ p))

/-- The PIN comparison and the failure count: the duress PIN is the stored one with its last digit raised by one, 9
wrapping to 0 (R14); PASS and DURESS clear the count, WRONG raises it and the third locks the permit out, MISSING
leaves it (R15). That a number above 9999 is WRONG too is the model's choice (log 41). -/
def Obligations.PinComparedAndCounted : Prop :=
  (∀ (pin : Nat) (v : BitVec 16),
      (v.toNat = pin → comparePin pin (some v) = .pass)
        ∧ (v.toNat / 10 = pin / 10 → v.toNat % 10 = (pin % 10 + 1) % 10 → comparePin pin (some v) = .duress)
        ∧ (v.toNat ≠ pin → ¬ (v.toNat / 10 = pin / 10 ∧ v.toNat % 10 = (pin % 10 + 1) % 10) →
          comparePin pin (some v) = .wrong)
        ∧ comparePin pin none = .missing)
    ∧ ∀ m : Permit,
      m.afterPin .pass = { m with pinFailures := 0 } ∧ m.afterPin .duress = { m with pinFailures := 0 }
        ∧ m.afterPin .missing = m ∧ m.pinReason (some .missing) = some .pinWrong
        ∧ (m.pinFailures ≤ 1 → m.afterPin .wrong = { m with pinFailures := m.pinFailures + 1 }
          ∧ m.pinReason (some .wrong) = some .pinWrong)
        ∧ (m.pinFailures = 2 → m.state = .active →
          m.afterPin .wrong = { m with pinFailures := 3, state := .suspended }
            ∧ m.pinReason (some .wrong) = some .pinLocked)

/-! ### The roster (R20 to R26, R46 to R48) -/

/-- READ ROSTER (R46): the UNCERTAIN flag, the occupancy limit, the count, and the slot and phase of each record of the
list, oldest first. READ OCCUPANT (R47, 11): every field of the record, absent ones reported absent, the watch's
deadline rounded up to whole seconds (R148). -/
def Obligations.ReadRosterAndOccupantAnswer : Prop :=
  (∀ (s : State) (index : BitVec 16), s.Ready →
      (16 ≤ index.toNat → OnlyAnswers (.readRoster index) s ⟨.badValue, []⟩)
        ∧ ∀ r : Room, index.toNat = r.val →
          OnlyAnswers (.readRoster index) s
            ⟨.ok, [flag (s.uncertain.get r), byte (s.zoneSettings r).occupancyLimit, byte (s.list r).length]
              ++ (s.list r).flatMap fun o => [byte o.val, optByte ((s.occupant o).map fun x => x.phase.code)]⟩)
    ∧ ∀ (s : State) (index : BitVec 16), s.Ready →
        (64 ≤ index.toNat → OnlyAnswers (.readOccupant index) s ⟨.badValue, []⟩)
          ∧ (∀ o : Slot, index.toNat = o.val → s.occupant o = none → OnlyAnswers (.readOccupant index) s ⟨.notFound, []⟩)
          ∧ (∀ (o : Slot) (x : Occupant), index.toNat = o.val → s.occupant o = some x →
            OnlyAnswers (.readOccupant index) s
              ⟨.ok, byte x.room.val :: num2 x.permit.val ++ byte x.phase.code :: num4 x.admittedAt
                ++ [flag x.duress, optByte (x.partner.map Fin.val), optByte (x.watch.map fun w => w.stage.code)]
                ++ num4 (((x.watch.bind Watch.deadline).map fun ms => (ms + 999) / 1000).getD 0)⟩)

/-- RETIRE OCCUPANT: BAD_VALUE above 63 and NOT_FOUND for a free slot; else the record leaves the roster (R23, R48):
its slot is free and out of its list, its permit is unlinked or, if RETIRING, removed, its partner keeps no link to it,
no alarm names the slot, and it is struck from every grant and pending exit (R45, R63). While the supply is NORMAL,
UNESCORTED of the strongroom is raised, or lost, where it becomes unescorted, and its cause ends where it no longer is
(R143); where the condition does not change, and in LOW (R144), neither happens. Permits, records and lists name each other
there, as they do after every step (RosterStaysSound). -/
def Obligations.RetireOccupantLeavesRoster : Prop :=
  ∀ (s : State) (index : BitVec 16), s.Ready →
    (64 ≤ index.toNat → OnlyAnswers (.retireOccupant index) s ⟨.badValue, []⟩)
      ∧ (∀ o : Slot, index.toNat = o.val → s.occupant o = none →
        OnlyAnswers (.retireOccupant index) s ⟨.notFound, []⟩)
      ∧ (∀ (o : Slot) (x : Occupant), RosterSound s → index.toNat = o.val → s.occupant o = some x →
        Takes (.retireOccupant index) s ⟨.ok, []⟩
          [.permits, .records, .watches, .lists, .pairs, .doors, .zones, .alarms, .overflow, .lostCount] fun t =>
          t.occupant o = none
            ∧ t.list x.room = (s.list x.room).filter (fun u => decide (u ≠ o))
            ∧ (∀ r, r ≠ x.room → t.list r = s.list r)
            ∧ (∀ m, s.permit x.permit = some m →
              t.permit x.permit = if m.state = .retiring then none else some { m with occupant := none })
            ∧ (∀ q, q ≠ x.permit → t.permit q = s.permit q)
            ∧ (∀ q y, x.partner = some q → q ≠ o → s.occupant q = some y →
              (t.occupant q).map Occupant.unwatched = some { y with partner := none, watch := none })
            ∧ (∀ r, (∀ h, s.pair r = some h → h.permit ≠ x.permit) → t.pair r = s.pair r)
            ∧ (∀ u, u ≠ o → some u ≠ x.partner →
              (t.occupant u).map Occupant.unwatched = (s.occupant u).map Occupant.unwatched)
            ∧ (∀ i a, t.alarm i = some a → a.key.occupant ≠ some o)
            ∧ (∀ d, t.door d = { s.door d with
                grant := (s.door d).grant.map fun g => { g with slots := g.slots.filter fun u => decide (u ≠ o) }
                pendingExit := (s.door d).pendingExit.map fun e =>
                  { e with slots := e.slots.filter fun u => decide (u ≠ o) } })
            ∧ (∀ z, z ≠ x.room → t.zone z = s.zone z)
            ∧ ((s.zone x.room).state ≠ .held → t.zone x.room = s.zone x.room)
            ∧ (s.inLow = false → ¬ s.Unescorted x.room → t.Unescorted x.room →
              s.RaisesOrLoses (unescortedKey x.room) t)
            ∧ (s.inLow = false → s.Unescorted x.room → ¬ t.Unescorted x.room →
              CauseEnded (unescortedKey x.room) t)
            ∧ (s.inLow = true ∨ (s.Unescorted x.room ↔ t.Unescorted x.room) → s.UnescortedKept x.room t))

/-- CONFIRM VACANT: the checks in their order, and a request that passes clears the strongroom's UNCERTAIN flag; a flag
already clear is left and nothing changes (R26). -/
def Obligations.ConfirmVacantClearsUncertain : Prop :=
  ∀ (s : State) (index : BitVec 16), s.Ready →
    (16 ≤ index.toNat → OnlyAnswers (.confirmVacant index) s ⟨.badValue, []⟩)
      ∧ ∀ r : Room, index.toNat = r.val →
        (s.keyOn = false → OnlyAnswers (.confirmVacant index) s ⟨.privilege, []⟩)
          ∧ (s.keyOn = true →
            (s.list r ≠ [] ∨ (s.door (outerDoor r)).effMode = .holdOpen ∨ (s.door (innerDoor r)).effMode = .holdOpen →
                OnlyAnswers (.confirmVacant index) s ⟨.refused, [0x01]⟩)
              ∧ (s.list r = [] → (s.door (outerDoor r)).effMode ≠ .holdOpen →
                (s.door (innerDoor r)).effMode ≠ .holdOpen →
                (s.uncertain.get r = false → OnlyAnswers (.confirmVacant index) s ⟨.ok, []⟩)
                  ∧ Takes (.confirmVacant index) s ⟨.ok, []⟩ [.uncertain, .zones, .alarms] fun t =>
                    t.uncertain.get r = false ∧ (∀ u, u ≠ r → t.uncertain.get u = s.uncertain.get u)
                      ∧ (∀ z, z ≠ r → t.zone z = s.zone z)
                      ∧ ((s.zone r).state ≠ .held → t.zone r = s.zone r ∧ t.alarms = s.alarms)))

/-! ### Admission (R27 to R45) -/

/-- GRANT ENTRY (R42): BAD_VALUE for a door number above 31, an inner door or a permit index above 511, NOT_FOUND at a free
position; then the door's pending pair is revalidated, and kept or dropped (R37); then checks 2 to 6 and 8 to 16 in order,
the first that fails refused with its reason, FULL for no free slot and PAIR_NEEDED where the two-person rule applies.
Granted (R33, R4, R13): the lowest free slot takes the holder's record, the permit is linked and charged one use, and a
REMOTE_ENTRY grant that names the slot begins at the outer door by its state (R52). The expiry test reads the old
minute in the instant of a minute boundary that is not yet taken, and the new one once that
instant has passed, before the sweep too (R16, R18, R149; log 36). -/
def Obligations.GrantEntryAdmits : Prop :=
  ∀ (s : State) (index permit : BitVec 16), s.Ready →
    (32 ≤ index.toNat ∨ index.toNat % 2 = 1 ∨ 512 ≤ permit.toNat →
        OnlyAnswers (.grantEntry index permit) s ⟨.badValue, []⟩)
      ∧ ∀ (r : Room) (p : PermitIx), index.toNat = (outerDoor r).val → permit.toNat = p.val →
        (s.permit p = none → OnlyAnswers (.grantEntry index permit) s ⟨.notFound, []⟩)
          ∧ ∀ (m : Permit) (u : State), s.permit p = some m → s.Revalidated r u →
            (∀ x, FirstFailing (u.checksOfPermit r m ++ u.checksAtDoor r p m 1 False ++ [(¬ u.NeedsPair r, .pairNeeded)]) x →
                Takes (.grantEntry index permit) s
                  (if x = .rosterFull then ⟨.full, []⟩ else ⟨.refused, [byte x.code]⟩) [.pairs] fun t =>
                    t.pairs = u.pairs ∧ (u.pair r ≠ s.pair r → t.changes.has (.door (outerDoor r)) = true))
              ∧ ∀ o : Slot, u.Admissible r p m → s.occupant o = none →
                (∀ v : Slot, v < o → (s.occupant v).isSome = true) →
                Takes (.grantEntry index permit) s ⟨.ok, [byte o.val]⟩
                  [.permits, .records, .lists, .pairs, .doors, .alarms] fun t =>
                    (t.occupant o).map Occupant.unwatched
                        = some ⟨r, p, .admitted, s.uptimeMs / 1000, false, none, none⟩
                      ∧ (∀ v, v ≠ o →
                        (t.occupant v).map Occupant.unwatched = (s.occupant v).map Occupant.unwatched)
                      ∧ t.list r = s.list r ++ [o] ∧ (∀ v, v ≠ r → t.list v = s.list v)
                      ∧ t.permit p = some (m.takenBy o) ∧ (∀ q, q ≠ p → t.permit q = s.permit q)
                      ∧ t.pairs = u.pairs
                      ∧ s.Begun (outerDoor r) .remoteEntry [o] (s.door (outerDoor r)) (t.door (outerDoor r))
                      ∧ ∀ d, d ≠ outerDoor r → t.door d = s.door d

/-- An outer entry presentation that passes every check and is admitted alone (R28 to R34): with a PIN asked, PASS or
DURESS; the pending pair at the door, if it no longer stands, is dropped (R37). The decision is GRANT, the lowest free slot
takes the record, with the duress flag for a duress PIN, the permit is linked and charged one use with its PIN failures at
0 (R4, R13, R15), and an ENTRY grant that names the slot begins at the outer door by its state (R52). A duress PIN raises
DURESS, naming the outer door and the permit and no slot, and alters nothing else. The expiry test reads the old
minute in the instant of a minute boundary that is not yet taken, and the new one once that
instant has passed, before the sweep too (R16, R18, R149; log 36). -/
def Obligations.EntryPresentationAdmits : Prop :=
  ∀ (s u : State) (l : LoopNo) (st : StationId) (r : Room) (q : Presentation) (p : PermitIx) (m : Permit)
    (duress : Bool) (o : Slot), s.Holds l st q → (s.entry st).role = .door (outerDoor r) → q.face = .entry →
    s.lookup q.credential = some p → s.permit p = some m → m.PinPasses q.pin duress → s.Revalidated r u →
    u.Admissible r p m → s.occupant o = none → (∀ v : Slot, v < o → (s.occupant v).isSome = true) →
    Happens (.presentationDecided l) s
      ([.permits, .records, .lists, .pairs, .doors, .alarms, .stations, .notes] ++ duressParts duress) fun t =>
        s.AnswersWith t st .grant q.mark
          ∧ (t.occupant o).map Occupant.unwatched = some ⟨r, p, .admitted, s.uptimeMs / 1000, duress, none, none⟩
          ∧ (∀ v, v ≠ o → (t.occupant v).map Occupant.unwatched = (s.occupant v).map Occupant.unwatched)
          ∧ t.list r = s.list r ++ [o] ∧ (∀ v, v ≠ r → t.list v = s.list v)
          ∧ t.permit p = some (m.pinTaken.takenBy o) ∧ (∀ v, v ≠ p → t.permit v = s.permit v)
          ∧ t.pairs = u.pairs
          ∧ s.Begun (outerDoor r) .entry [o] (s.door (outerDoor r)) (t.door (outerDoor r))
          ∧ (∀ d, d ≠ outerDoor r → t.door d = s.door d)
          ∧ (duress = true → s.DuressTaken ⟨.duress, some r, some (outerDoor r), none, none⟩ p t)

/-- Pending pairs (R32, R34 to R37): under the two-person rule, with no pair that stands at the door, the first holder,
whose PIN passes or is the duress PIN, is answered WAIT and held with the window's deadline and the duress flag; the
holder's card again is answered WAIT and changes nothing; a second holder, passing with places for two, is answered GRANT,
and both are admitted in one grant, the held holder in the lower slot and first in the list, each with their own duress
flag, each the other's partner, each permit linked and charged one use (R13); the window's end drops the pair without any
record or use. A duress PIN raises DURESS, naming the outer door and the permit. That an expiry before its deadline
changes nothing is the model's choice (log 3). The expiry tests of both holders read the old
minute in the instant of a minute boundary that is not yet taken, and the new one once that
instant has passed, before the sweep too (R16, R18, R149; log 36). -/
def Obligations.PendingPairsFormAndEnd : Prop :=
  (∀ (s : State) (l : LoopNo) (st : StationId) (r : Room) (q : Presentation) (p : PermitIx) (m : Permit)
      (duress : Bool), s.Holds l st q → (s.entry st).role = .door (outerDoor r) → q.face = .entry →
      s.lookup q.credential = some p → s.permit p = some m → m.PinPasses q.pin duress →
      s.Entitled r m → s.NeedsPair r →
      ((∀ h, s.pair r = some h → ¬ s.PairStands r h) → (s.setPair r none).TakesAtDoor r p m 1 → m.cls ≠ .visitor →
          (∃ o, s.occupant o = none) →
          Happens (.presentationDecided l) s ([.permits, .pairs, .stations, .notes] ++ duressParts duress) fun t =>
            s.AnswersWith t st .wait q.mark
              ∧ t.pair r = some ⟨p, duress, s.uptimeMs + 1000 * s.settings.pairWindow⟩
              ∧ (∀ v, v ≠ r → t.pair v = s.pair v)
              ∧ t.permit p = some m.pinTaken ∧ (∀ v, v ≠ p → t.permit v = s.permit v)
              ∧ (duress = true → s.DuressTaken ⟨.duress, some r, some (outerDoor r), none, none⟩ p t))
        ∧ ∀ (h : PendingPair) (k : Permit) (a b : Slot), s.pair r = some h → s.permit h.permit = some k →
          s.Entitled r k → s.TakesAtDoor r p m 2 → m.cls ≠ .visitor ∨ k.cls ≠ .visitor → a < b →
          s.occupant a = none → s.occupant b = none → (∀ v : Slot, v < b → v ≠ a → (s.occupant v).isSome = true) →
          Happens (.presentationDecided l) s
            ([.permits, .records, .lists, .pairs, .doors, .alarms, .stations, .notes] ++ duressParts duress) fun t =>
              s.AnswersWith t st .grant q.mark ∧ t.pair r = none ∧ (∀ v, v ≠ r → t.pair v = s.pair v)
                ∧ (t.occupant a).map Occupant.unwatched
                  = some ⟨r, h.permit, .admitted, s.uptimeMs / 1000, h.duress, some b, none⟩
                ∧ (t.occupant b).map Occupant.unwatched
                  = some ⟨r, p, .admitted, s.uptimeMs / 1000, duress, some a, none⟩
                ∧ (∀ v, v ≠ a → v ≠ b →
                  (t.occupant v).map Occupant.unwatched = (s.occupant v).map Occupant.unwatched)
                ∧ t.list r = s.list r ++ [a, b] ∧ (∀ v, v ≠ r → t.list v = s.list v)
                ∧ t.permit h.permit = some (k.takenBy a) ∧ t.permit p = some (m.pinTaken.takenBy b)
                ∧ (∀ v, v ≠ p → v ≠ h.permit → t.permit v = s.permit v)
                ∧ s.Begun (outerDoor r) .entry [a, b] (s.door (outerDoor r)) (t.door (outerDoor r))
                ∧ (∀ d, d ≠ outerDoor r → t.door d = s.door d)
                ∧ (duress = true → s.DuressTaken ⟨.duress, some r, some (outerDoor r), none, none⟩ p t))
    ∧ (∀ (s : State) (l : LoopNo) (st : StationId) (r : Room) (q : Presentation) (h : PendingPair), s.Holds l st q →
      (s.entry st).role = .door (outerDoor r) → q.face = .entry → s.pair r = some h → s.PairStands r h →
      s.lookup q.credential = some h.permit →
      Happens (.presentationDecided l) s [.stations, .notes] fun t => s.AnswersWith t st .wait q.mark)
    ∧ ∀ (s : State) (r : Room) (h : PendingPair), s.running = true → s.handedRaises = [] → s.pair r = some h →
      (h.deadline ≤ s.uptimeMs →
          Happens (.pairWindowEnd r) s [.pairs] fun t => t.pair r = none ∧ ∀ v, v ≠ r → t.pair v = s.pair v)
        ∧ (s.uptimeMs < h.deadline → exec (.pairWindowEnd r) s = .next s)

/-- The presentations of people on the roster (R38 to R40). An inner entry from the vestibule begins an INNER_ENTRY grant
that names the record, and its partner if that is in VESTIBULE too. An exit is always answered GRANT: with the bolt kept
withdrawn for HOLD_OPEN it has no effect; where it can begin it begins an EXIT grant that names the record the door lets
out, or an ANONYMOUS_EXIT; in EGRESS, in CLOSED_WAIT under an exit, it completes that passage and is the next grant (R64;
the kind and slots after a named record has left are log 22); else it is the door's pending exit, or joins it (R62, R63).
A check-in from inside is answered GRANT and acts on the watch (R140); one with the duress PIN also sets the record's
duress flag and raises DURESS, naming the inner door, the slot and the permit. -/
def Obligations.RosterPresentationsDecided : Prop :=
  ∀ (s : State) (l : LoopNo) (st : StationId) (q : Presentation), s.Holds l st q →
    (∀ (r : Room) (o : Slot) (x : Occupant) (slots : List Slot), (s.entry st).role = .door (innerDoor r) →
        q.face = .entry → s.slotIn q.credential r [.vestibule] = some o → s.occupant o = some x →
        ((∃ v y, x.partner = some v ∧ s.occupant v = some y ∧ y.phase = .vestibule ∧ slots = [o, v])
          ∨ ((∀ v y, x.partner = some v → s.occupant v = some y → y.phase ≠ .vestibule) ∧ slots = [o])) →
        (s.zone r).state = .normal ∨ (s.zone r).state = .isolated → (s.door (innerDoor r)).effMode = .normal →
        (∀ c, (s.door (innerDoor r)).state ≠ .fault c) → (s.door (innerDoor r)).grant = none →
        (s.door (innerDoor r)).pendingExit = none → (s.door (outerDoor r)).state = .secured →
        Happens (.presentationDecided l) s [.stations, .notes, .doors] fun t =>
          s.AnswersWith t st .grant q.mark
            ∧ s.Begun (innerDoor r) .innerEntry slots (s.door (innerDoor r)) (t.door (innerDoor r))
            ∧ ∀ d, d ≠ innerDoor r → t.door d = s.door d)
      ∧ (∀ (d : DoorNo) (slots : List Slot), (s.entry st).role = .door d → q.face = .exit →
        slots = (s.slotIn q.credential (roomOf d) (exitPhases d)).toList →
        (∃ t, exec (.presentationDecided l) s = .next t ∧ (t.station st).handshake = .answering .grant q.mark)
          ∧ (s.HeldUnbolted d →
            Happens (.presentationDecided l) s [.stations, .notes] fun t => s.AnswersWith t st .grant q.mark)
          ∧ (s.CanBegin d → ¬ s.HeldUnbolted d →
            Happens (.presentationDecided l) s [.stations, .notes, .doors] fun t =>
              s.AnswersWith t st .grant q.mark ∧ s.Begun d (exitOf slots) slots (s.door d) (t.door d)
                ∧ ∀ e, e ≠ d → t.door e = s.door e)
          ∧ (∀ g, (s.door d).effMode = .egress → (s.door d).grant = some g → g.kind.isEntry = false →
            (s.door d).state = .closedWait →
            Happens (.presentationDecided l) s
              [.stations, .notes, .doors, .permits, .records, .watches, .lists, .pairs, .zones, .alarms, .overflow,
                .lostCount] fun t =>
              s.AnswersWith t st .grant q.mark ∧ s.MergedInWait d g slots t)
          ∧ (¬ s.CanBegin d → ¬ s.HeldUnbolted d →
            ¬ ((s.door d).effMode = .egress ∧ ∃ g, (s.door d).grant = some g ∧ g.kind.isEntry = false) →
            Happens (.presentationDecided l) s [.stations, .notes, .doors] fun t =>
              s.AnswersWith t st .grant q.mark
                ∧ ((s.door d).pendingExit = none → t.door d = { s.door d with pendingExit := some ⟨slots⟩ })
                ∧ (∀ e, (s.door d).pendingExit = some e →
                  t.door d = { s.door d with
                    pendingExit := some ⟨(e.slots ++ slots.filter fun o => decide (o ∉ e.slots)).take 2⟩ })
                ∧ ∀ e, e ≠ d → t.door e = s.door e))
      ∧ ∀ (r : Room) (o : Slot) (x : Occupant) (p : PermitIx) (m : Permit), (s.entry st).role = .door (innerDoor r) →
        q.face = .checkIn → s.lookup q.credential = some p → s.permit p = some m →
        s.slotIn q.credential r [.inside] = some o → s.occupant o = some x →
        (¬ (∃ pin v, m.pin = some pin ∧ q.pin = some v ∧ IsDuressPin pin v) →
            Happens (.presentationDecided l) s [.stations, .notes, .watches, .alarms] fun t =>
              s.AnswersWith t st .grant q.mark ∧ s.CheckedIn o r t ∧ (∀ v, v ≠ o → t.watch v = s.watch v)
                ∧ ((∀ w, s.watch o = some w → w.stage ≠ .three) → t.alarms = s.alarms)
                ∧ (∀ w i a, s.watch o = some w → w.stage = .three → s.alarm i = some a → a.key.kind = .loneWorker →
                  a.key.occupant = some o → t.watch o = some w))
          ∧ ((∃ pin v, m.pin = some pin ∧ q.pin = some v ∧ IsDuressPin pin v) →
            Happens (.presentationDecided l) s
              [.stations, .notes, .records, .watches, .alarms, .overflow, .lostCount] fun t =>
                s.AnswersWith t st .grant q.mark ∧ s.CheckedIn o r t
                  ∧ (t.occupant o).map Occupant.unwatched = some { x with duress := true, watch := none }
                  ∧ (∀ v, v ≠ o → (t.occupant v).map Occupant.unwatched = (s.occupant v).map Occupant.unwatched)
                  ∧ s.DuressTaken ⟨.duress, some r, some (innerDoor r), some o, none⟩ x.permit t)

/-- The presentations that unbolt no door (R2, R15, R27 to R31, R34, R37, R38, R40, R41). An outer entry is denied UNKNOWN
for an unknown credential, and by the first of checks 2 to 6 that fails; then PIN_WRONG for a PIN missing, or wrong and
counted (log 41), and PIN_LOCKED for the third wrong one in a row, which suspends the permit; then by the first of checks 8 to 15
that fails, taken for two where it would complete the pair, after a PIN that passed, and a duress PIN raises DURESS all the
same. An inner entry is denied by the first of its six checks that fails. Each of these denials is written into the door's
last denial. A check-in at an outer door, and a check-in or muster without a suitable record, are denied and change
nothing; a muster presentation of a holder on the roster retires the record and is answered GRANT. The expiry test reads
the old minute in the instant of a minute boundary that is not yet taken, and the new one once that
instant has passed, before the sweep too (R16, R18, R149; log 36). -/
def Obligations.PresentationsWithoutDoor : Prop :=
  (∀ (s u : State) (l : LoopNo) (st : StationId) (q : Presentation) (r : Room), s.Holds l st q →
      (s.entry st).role = .door (outerDoor r) → q.face = .entry → s.Revalidated r u →
      (s.lookup q.credential = none →
          Happens (.presentationDecided l) s [.stations, .notes, .doors, .pairs] fun t =>
            s.Denies t st (outerDoor r) q .unknown ∧ t.pairs = u.pairs)
        ∧ ∀ (p : PermitIx) (m : Permit), s.lookup q.credential = some p → s.permit p = some m →
          (∀ h, u.pair r = some h → h.permit ≠ p) →
          (∀ x, FirstFailing (u.checksOfPermit r m) x →
              Happens (.presentationDecided l) s [.stations, .notes, .doors, .pairs] fun t =>
                s.Denies t st (outerDoor r) q x ∧ t.pairs = u.pairs)
            ∧ (∀ pin, s.Entitled r m → m.pin = some pin → q.pin = none →
              Happens (.presentationDecided l) s [.stations, .notes, .doors, .pairs] fun t =>
                s.Denies t st (outerDoor r) q .pinWrong ∧ t.pairs = u.pairs)
            ∧ (∀ pin v, s.Entitled r m → m.pin = some pin → q.pin = some v → v.toNat ≠ pin → ¬ IsDuressPin pin v →
              Happens (.presentationDecided l) s [.stations, .notes, .doors, .pairs, .permits] fun t =>
                (m.pinFailures ≤ 1 → s.Denies t st (outerDoor r) q .pinWrong
                    ∧ t.permit p = some { m with pinFailures := m.pinFailures + 1 })
                  ∧ (2 ≤ m.pinFailures → s.Denies t st (outerDoor r) q .pinLocked
                    ∧ t.permit p = some { m with pinFailures := 3, state := .suspended })
                  ∧ (∀ k, k ≠ p → t.permit k = s.permit k) ∧ t.pairs = u.pairs)
            ∧ (∀ duress x, s.Entitled r m → m.PinPasses q.pin duress →
              FirstFailing (u.checksAtDoor r p m (if (u.pair r).isSome then 2 else 1) (u.Company r)) x →
              Happens (.presentationDecided l) s
                ([.stations, .notes, .doors, .pairs, .permits] ++ duressParts duress) fun t =>
                  s.Denies t st (outerDoor r) q x ∧ t.pairs = u.pairs
                    ∧ t.permit p = some m.pinTaken ∧ (∀ v, v ≠ p → t.permit v = s.permit v)
                    ∧ (duress = true → s.DuressTaken ⟨.duress, some r, some (outerDoor r), none, none⟩ p t)))
    ∧ (∀ (s : State) (l : LoopNo) (st : StationId) (q : Presentation), s.Holds l st q →
      (∀ r x, (s.entry st).role = .door (innerDoor r) → q.face = .entry → FirstFailing (s.checksInside r q.credential) x →
          Happens (.presentationDecided l) s [.stations, .notes, .doors] fun t => s.Denies t st (innerDoor r) q x)
        ∧ ((∃ d, (s.entry st).role = .door d ∧ q.face = .checkIn
              ∧ (isOuter d = true ∨ s.slotIn q.credential (roomOf d) [.inside] = none))
            ∨ ((s.entry st).role = .muster ∧ s.slotOfCredential q.credential = none) →
          Happens (.presentationDecided l) s [.stations, .notes] fun t =>
            s.AnswersWith t st (.deny .notOnRoster) q.mark))
    ∧ ∀ (s : State) (l : LoopNo) (st : StationId) (q : Presentation) (o : Slot) (x : Occupant), s.Holds l st q →
        (s.entry st).role = .muster → s.slotOfCredential q.credential = some o → s.occupant o = some x →
        Happens (.presentationDecided l) s
          [.stations, .notes, .permits, .records, .watches, .lists, .pairs, .doors, .zones, .alarms, .overflow, .lostCount]
          fun t =>
            s.AnswersWith t st .grant q.mark ∧ t.occupant o = none
              ∧ t.list x.room = (s.list x.room).filter (fun u => decide (u ≠ o))
              ∧ (∀ r, r ≠ x.room → t.list r = s.list r)

/-! ### Doors (R50 to R77) -/

/-- READ DOOR, READ ZONE and READ STATION: BAD_VALUE out of range; else OK with the record in the layout of chapter 11,
43, 28 and 10 bytes, and nothing changes (R73, R95, R120). Deadlines are reported rounded up to whole seconds (R148);
the zone's seconds remaining are that less the present uptime seconds (log 33). The reading of an absent contact or
bolt as FFh is the model's (log 33), and so is the credential of an absent last denial as 0 (log 43). -/
def Obligations.ReadDoorZoneStationAnswer : Prop :=
  ∀ (s : State) (index : BitVec 16), s.Ready →
    (32 ≤ index.toNat → OnlyAnswers (.readDoor index) s ⟨.badValue, []⟩)
      ∧ (16 ≤ index.toNat → OnlyAnswers (.readZone index) s ⟨.badValue, []⟩)
      ∧ (64 ≤ index.toNat → OnlyAnswers (.readStation index) s ⟨.badValue, []⟩)
      ∧ (∀ d : DoorNo, index.toNat = d.val →
        OnlyAnswers (.readDoor index) s
          ⟨.ok, [byte (s.door d).state.code, optByte ((s.door d).state.cause.map FaultCause.code),
              byte (s.door d).baseMode.code, byte (s.door d).effMode.code,
              optByte ((s.door d).grant.map fun g => g.kind.code),
              optByte ((s.door d).grant.bind fun g => g.slots[0]?.map Fin.val),
              optByte ((s.door d).grant.bind fun g => g.slots[1]?.map Fin.val)]
            ++ num4 ((((s.door d).grant.bind Grant.lapse).map fun ms => (ms + 999) / 1000).getD 0)
            ++ [optByte ((s.door d).pendingExit.map fun e => if e.slots = [] then 3 else 2),
              optByte ((s.door d).pendingExit.bind fun e => e.slots[0]?.map Fin.val),
              optByte ((s.door d).pendingExit.bind fun e => e.slots[1]?.map Fin.val)]
            ++ num4 (((s.door d).stepDeadline.map fun ms => (ms + 999) / 1000).getD 0)
            ++ num2 (s.door d).passages.toNat ++ [byte (s.door d).forced, byte (s.door d).held]
            ++ (match (s.door d).lastDenial with
              | none => [0, 0, 0, 0]
              | some x => byte x.reason.code :: num3 x.credential.toNat)
            ++ [byte (s.doorSettings d).failMode.code, byte (s.doorSettings d).travelLimit,
              byte (s.doorSettings d).grantTime, byte (s.doorSettings d).reboltDelay]
            ++ num2 (s.doorSettings d).heldOpenLimit
            ++ [optByte ((s.door d).contact.map Contact.code), optByte ((s.door d).bolt.map BoltReading.code),
              byte (boltDrive (s.door d) (s.doorSettings d)).code, byte (indicator (s.door d)).code, flag (s.buzzer d)]
            ++ (match isOuter d, s.pair (roomOf d) with
              | true, some h => num2 h.permit.val ++ num4 ((h.deadline + 999) / 1000)
              | _, _ => [0xFF, 0xFF, 0, 0, 0, 0])⟩)
      ∧ (∀ z : Room, index.toNat = z.val →
        OnlyAnswers (.readZone index) s
          ⟨.ok, [byte (s.zone z).state.code,
              byte (bit 0 (s.zone z).holdReasons.abort + bit 1 (s.zone z).holdReasons.occupied
                + bit 2 (s.zone z).holdReasons.uncertain + bit 3 (s.zone z).holdReasons.doorOpen
                + bit 4 (s.zone z).holdReasons.stationLost)]
            ++ (match (s.zone z).countdown with
              | none => [0xFF, 0xFF]
              | some ms => num2 ((ms + 999) / 1000 - s.uptimeMs / 1000))
            ++ num2 (s.zone z).heldFor ++ [flag (s.zone z).trappedRaised, byte (s.zone z).attempt.code]
            ++ (match (s.zone z).confirmEnd with
              | none => [0xFF, 0xFF]
              | some ms => num2 (ms - s.uptimeMs))
            ++ [byte (s.zone z).detectorA.code, byte (s.zone z).detectorB.code,
              byte (bit 0 (s.zone z).abort + bit 1 (s.zone z).manualRelease + bit 2 (s.zone z).pressure),
              flag (s.inContact z), optByte ((s.serving (.zone z)).map Fin.val), byte (s.list z).length,
              flag (s.uncertain.get z),
              (match (s.zone z).isolationRefusal with | none => 0 | some r => byte r.code),
              s.zoneOutput z, flag (s.chimeRequest z), byte (s.zoneSettings z).predischarge,
              byte (s.zoneSettings z).resume]
            ++ num2 (s.zoneSettings z).holdLimit
            ++ [byte (s.zoneSettings z).confirmWindow, byte (s.zoneSettings z).occupancyLimit,
              flag (s.zoneSettings z).twoPerson, byte (s.zoneSettings z).checkIn]⟩)
      ∧ ∀ t : StationId, index.toNat = t.val →
        OnlyAnswers (.readStation index) s
          ⟨.ok, [byte (s.entry t).role.code, optByte (s.entry t).role.number, flag (s.entry t).last,
            flag (inCycle s.settings.stations t), byte (s.station t).presence.code, byte (s.station t).missed,
            (s.station t).inputs.getD 0xFF, (s.station t).candidate.getD 0xFF, byte (s.station t).handshake.code,
            s.stationOutput t]⟩

/-- RELEASE EXIT by its outcome (R62, R63, R64, R72): NO_EFFECT at a door held unbolted under HOLD_OPEN; MERGED at a door
that serves an exit in EGRESS, where a RELEASED door's lapse is set again, OPEN, UNBOLTING and a FAULT that drives the exit
change nothing, and in CLOSED_WAIT the passage is complete and the merged exit is the next grant; STARTED where the exit
can begin, by the door's state (R52); and PENDING otherwise. -/
def Obligations.ReleaseExitOutcomes : Prop :=
  ∀ (s : State) (index : BitVec 16), s.Ready →
    (32 ≤ index.toNat → OnlyAnswers (.releaseExit index) s ⟨.badValue, []⟩)
      ∧ ∀ d : DoorNo, index.toNat = d.val →
        (s.HeldUnbolted d → OnlyAnswers (.releaseExit index) s ⟨.ok, [3]⟩)
          ∧ (∀ g, (s.door d).effMode = .egress → (s.door d).grant = some g → g.kind.isEntry = false →
            ((s.door d).state = .released →
                Takes (.releaseExit index) s ⟨.ok, [1]⟩ [.doors] fun t =>
                  t.door d = { s.door d with
                      grant := some { g with lapse := some (s.uptimeMs + 1000 * (s.doorSettings d).grantTime) }
                      stepDeadline := some (s.uptimeMs + 1000 * (s.doorSettings d).grantTime) }
                    ∧ ∀ e, e ≠ d → t.door e = s.door e)
              ∧ ((s.door d).state = .opened ∨ (s.door d).state = .unbolting ∨ (∃ c, (s.door d).state = .fault c) →
                OnlyAnswers (.releaseExit index) s ⟨.ok, [1]⟩)
              ∧ ((s.door d).state = .closedWait →
                Takes (.releaseExit index) s ⟨.ok, [1]⟩
                  [.doors, .permits, .records, .watches, .lists, .pairs, .zones, .alarms, .overflow, .lostCount] fun t =>
                    s.MergedInWait d g [] t
                      ∧ (g.kind = .anonymousExit →
                        OnlyChanges [.framer, .changes, .doors] s t ∧ ∀ e, e ≠ d → t.door e = s.door e)))
          ∧ (s.CanBegin d → ¬ s.HeldUnbolted d →
            Takes (.releaseExit index) s ⟨.ok, [0]⟩ [.doors] fun t =>
              s.Begun d .anonymousExit [] (s.door d) (t.door d) ∧ ∀ e, e ≠ d → t.door e = s.door e)
          ∧ (¬ s.CanBegin d → ¬ s.HeldUnbolted d →
            ¬ ((s.door d).effMode = .egress ∧ ∃ g, (s.door d).grant = some g ∧ g.kind.isEntry = false) →
            Takes (.releaseExit index) s ⟨.ok, [2]⟩ [.doors] fun t =>
              ((s.door d).pendingExit = none → t.door d = { s.door d with pendingExit := some ⟨[]⟩ })
                ∧ (∀ e, (s.door d).pendingExit = some e → e.slots.length ≤ 2 → t.door d = s.door d)
                ∧ ∀ e, e ≠ d → t.door e = s.door e)

/-- SET DOOR MODE: the refusals in their order, and the request that names the present base mode (R70); taken, the base
mode is set and the effective mode recomputed, and an outer door that leaves NORMAL loses its pending pair (R65). A door
that becomes HOLD_OPEN sets its strongroom UNCERTAIN and, without a grant, withdraws (R68). A change to another mode keeps
the door's state and grant, but that a door leaving HOLD_OPEN re-bolts, UNBOLTING or RELEASED without a grant, and one
RELEASED without a grant goes to BOLTING in LOCKDOWN and OUT_OF_SERVICE (R53, R54, R65, R67), where its pending exit is
tested (R63), or a bolt that reads THROWN makes it SECURED and the cause of FORCED_DOOR ends (R51, R57, R58). In OPEN the
held-open timer is removed by OUT_OF_SERVICE and starts in full when HOLD_OPEN or OUT_OF_SERVICE is left (R55). Where the
zone forces the effective mode, the base mode alone changes. No other door changes, but the partner where the door
becomes SECURED; no alarm changes but then. The model's choices are that the held-open timer starts again also after it
has run out in this stay (log 37), that THROWN is taken before the pending exit is tested (log 19), and that a pending
exit tested at a partner RELEASED in HOLD_OPEN begins (log 44). -/
def Obligations.SetDoorModeChecksAndApplies : Prop :=
  (∀ (s : State) (index : BitVec 16) (mode : Byte), s.Ready →
      (32 ≤ index.toNat ∨ 3 < mode.toNat → OnlyAnswers (.setDoorMode index mode) s ⟨.badValue, []⟩)
        ∧ ∀ (d : DoorNo) (m : BaseMode), index.toNat = d.val → byte m.code = mode →
          (s.keyOn = false → m = .holdOpen ∨ m = .outOfService ∨ (s.door d).baseMode = .outOfService →
              OnlyAnswers (.setDoorMode index mode) s ⟨.privilege, []⟩)
            ∧ (s.MayChangeMode d m → (s.door d).baseMode = m → OnlyAnswers (.setDoorMode index mode) s ⟨.ok, []⟩)
            ∧ (s.keyOn = true → m = .holdOpen → (s.door d).baseMode ≠ .holdOpen →
              ((s.zone (roomOf d)).state ≠ .normal → (s.zone (roomOf d)).state ≠ .isolated →
                  OnlyAnswers (.setDoorMode index mode) s ⟨.refused, [0x08]⟩)
                ∧ ((s.zone (roomOf d)).state = .normal ∨ (s.zone (roomOf d)).state = .isolated →
                  ((s.door d).state ≠ .secured ∨ (s.door d).pendingExit.isSome = true →
                      OnlyAnswers (.setDoorMode index mode) s ⟨.refused, [0x03]⟩)
                    ∧ ((s.door d).state = .secured → (s.door d).pendingExit = none →
                      (s.door (partner d)).state ≠ .secured ∨ (s.door (partner d)).baseMode = .holdOpen →
                      OnlyAnswers (.setDoorMode index mode) s ⟨.refused, [0x07]⟩))))
    ∧ ∀ (s : State) (index : BitVec 16) (mode : Byte) (d : DoorNo) (m : BaseMode), s.Ready → ModesComputed s →
        index.toNat = d.val → byte m.code = mode → s.MayChangeMode d m → (s.door d).baseMode ≠ m →
        (m = .holdOpen → s.MayHoldOpen d) →
        Takes (.setDoorMode index mode) s ⟨.ok, []⟩ [.doors, .pairs, .uncertain, .alarms] fun t =>
          (t.door d).baseMode = m
            ∧ (t.door d).effMode = effectiveMode (s.zone (roomOf d)).state m
            ∧ (isOuter d = true → (s.door d).effMode = .normal → (t.door d).effMode ≠ .normal → t.pair (roomOf d) = none)
            ∧ (∀ r, r ≠ roomOf d → t.pair r = s.pair r)
            ∧ (m = .holdOpen → t.uncertain.get (roomOf d) = true)
            ∧ (m ≠ .holdOpen → t.uncertain = s.uncertain)
            ∧ (∀ r, r ≠ roomOf d → t.uncertain.get r = s.uncertain.get r)
            ∧ s.TakesMode d { s.door d with baseMode := m } (effectiveMode (s.zone (roomOf d)).state m) t
            ∧ ((s.door d).ReboltsOn (effectiveMode (s.zone (roomOf d)).state m) →
              effectiveMode (s.zone (roomOf d)).state m ≠ (s.door d).effMode → (s.door d).bolt = some .thrown →
              CauseEnded ⟨.forcedDoor, some (roomOf d), some d, none, none⟩ t)
            ∧ (effectiveMode (s.zone (roomOf d)).state m = (s.door d).effMode
                ∨ ¬ (s.door d).ReboltsOn (effectiveMode (s.zone (roomOf d)).state m)
                ∨ (s.door d).bolt ≠ some .thrown → t.alarms = s.alarms)

/-- RESET DOOR (R71): taken in FAULT with BOLT_JAM, or with SENSOR_CONFLICT that no longer reads CONFLICT, and no exit
driven; the door retries, to OPEN with its contact OPEN, and to BOLTING with it CLOSED, where a pending exit begins if it
can (R63) and a bolt that reads THROWN makes the door SECURED in the same event (R51, R57); that THROWN is taken before the
pending exit is tested is the model's choice (log 19). Refused WRONG_STATE otherwise. CLEAR COUNTS sets the three counts of
the door to 0 and keeps every other field (R74). -/
def Obligations.ResetDoorAndClearCounts : Prop :=
  (∀ (s : State) (index : BitVec 16), s.Ready →
      (32 ≤ index.toNat → OnlyAnswers (.resetDoor index) s ⟨.badValue, []⟩)
        ∧ ∀ d : DoorNo, index.toNat = d.val →
          (¬ s.Resettable d → OnlyAnswers (.resetDoor index) s ⟨.refused, [0x03]⟩)
            ∧ (s.Resettable d → (s.door d).contact = some .opened →
              Takes (.resetDoor index) s ⟨.ok, []⟩ [.doors] fun t =>
                t.door d = { s.door d with
                    state := .opened
                    grant := none
                    stepDeadline := s.openUntil d (s.door d) }
                  ∧ ∀ e, e ≠ d → t.door e = s.door e)
            ∧ (s.Resettable d → (s.door d).contact = some .closed → (s.door d).bolt ≠ some .thrown →
              Takes (.resetDoor index) s ⟨.ok, []⟩ [.doors] fun t =>
                s.TestsPending d (s.boltingFrom d (s.door d)) (t.door d) ∧ ∀ e, e ≠ d → t.door e = s.door e)
            ∧ (s.Resettable d → (s.door d).contact = some .closed → (s.door d).bolt = some .thrown →
              Takes (.resetDoor index) s ⟨.ok, []⟩ [.doors, .alarms] fun t =>
                s.Secures d ((s.door d).atRest .secured) t
                  ∧ CauseEnded ⟨.forcedDoor, some (roomOf d), some d, none, none⟩ t))
    ∧ ∀ (s : State) (index : BitVec 16), s.Ready →
      (32 ≤ index.toNat → OnlyAnswers (.clearCounts index) s ⟨.badValue, []⟩)
        ∧ ∀ d : DoorNo, index.toNat = d.val →
          Takes (.clearCounts index) s ⟨.ok, []⟩ [.doors] fun t =>
            t.door d = { s.door d with passages := 0, forced := 0, held := 0 } ∧ ∀ e, e ≠ d → t.door e = s.door e

/-- The limits of a door's timers. The travel limit in UNBOLTING or BOLTING puts the door in FAULT with BOLT_JAM and ends
its grant without passage (R44, R53, R57, R59); in FAULT it ends the exit that is driven, and the cause stays (R60). A
grant lapses at the step deadline of a RELEASED door (R44, R54): it ends without passage, and with or without one the door
goes to BOLTING, or in HOLD_OPEN to RELEASED without a grant; a bolt that reads THROWN makes it SECURED at once (R51, R57).
A grant that ends tests the door's pending exit (R63), and an ENTRY or REMOTE_ENTRY grant retires the ADMITTED records it
names. The held-open limit of an OPEN door raises DOOR_HELD naming the door and its strongroom, counts up held, stopping at
255, and makes the step deadline absent (R55). That an expiry before its deadline changes nothing (log 3), that
a bolt THROWN is taken before the door's own pending exit is tested (log 19), that entry to FAULT tests that exit (log
20), and that it begins also at a door RELEASED in HOLD_OPEN (log 44), are the model's choices. -/
def Obligations.DoorLimitsRunOut : Prop :=
  (∀ (s : State) (d : DoorNo) (ms : Nat), s.Live → (s.door d).state = .unbolting ∨ (s.door d).state = .bolting →
      (s.door d).stepDeadline = some ms →
      (s.uptimeMs < ms → exec (.travelLimit d) s = .next s)
        ∧ (ms ≤ s.uptimeMs → (∀ g, (s.door d).grant = some g → ¬ g.Retires) →
          Happens (.travelLimit d) s [.doors] fun t =>
            s.TestsPending d ((s.door d).atRest (.fault .boltJam)) (t.door d) ∧ ∀ e, e ≠ d → t.door e = s.door e)
        ∧ (∀ g, ms ≤ s.uptimeMs → (s.door d).grant = some g → g.Retires → (s.door d).NamesApart g →
          Happens (.travelLimit d) s
            [.doors, .permits, .records, .watches, .lists, .pairs, .zones, .alarms, .overflow, .lostCount] fun t =>
            s.TestsPending d ((s.door d).atRest (.fault .boltJam)) (t.door d) ∧ s.RetiresAdmitted g t
              ∧ ∀ o, o ∉ g.slots → (t.occupant o).isSome = (s.occupant o).isSome))
    ∧ (∀ (s : State) (d : DoorNo) (ms : Nat) (c : FaultCause) (g : Grant), s.Live → (s.door d).state = .fault c →
      (s.door d).stepDeadline = some ms → (s.door d).grant = some g → ¬ g.Retires →
      (s.uptimeMs < ms → exec (.travelLimit d) s = .next s)
        ∧ (ms ≤ s.uptimeMs →
          Happens (.travelLimit d) s [.doors] fun t =>
            s.TestsPending d ((s.door d).atRest (.fault c)) (t.door d) ∧ ∀ e, e ≠ d → t.door e = s.door e))
    ∧ (∀ (s : State) (d : DoorNo) (ms : Nat) (x : Door), s.Live → (s.door d).state = .released →
      (s.door d).stepDeadline = some ms →
      x = (if (s.door d).effMode = .holdOpen then (s.door d).atRest .released else s.boltingFrom d (s.door d)) →
      (s.uptimeMs < ms → exec (.lapse d) s = .next s)
        ∧ (ms ≤ s.uptimeMs → (s.door d).effMode = .holdOpen ∨ (s.door d).bolt ≠ some .thrown →
          ((∀ g, (s.door d).grant = some g → ¬ g.Retires) →
              Happens (.lapse d) s [.doors] fun t =>
                s.TestsPending d x (t.door d) ∧ ∀ e, e ≠ d → t.door e = s.door e)
            ∧ (∀ g, (s.door d).grant = some g → g.Retires → (s.door d).NamesApart g →
              Happens (.lapse d) s
                [.doors, .permits, .records, .watches, .lists, .pairs, .zones, .alarms, .overflow, .lostCount] fun t =>
                s.TestsPending d x (t.door d) ∧ s.RetiresAdmitted g t
                  ∧ ∀ o, o ∉ g.slots → (t.occupant o).isSome = (s.occupant o).isSome))
        ∧ (ms ≤ s.uptimeMs → (s.door d).effMode ≠ .holdOpen → (s.door d).bolt = some .thrown →
          ((∀ g, (s.door d).grant = some g → ¬ g.Retires) →
              Happens (.lapse d) s [.doors, .alarms] fun t =>
                s.Secures d ((s.door d).atRest .secured) t
                  ∧ CauseEnded ⟨.forcedDoor, some (roomOf d), some d, none, none⟩ t)
            ∧ (∀ g, (s.door d).grant = some g → g.Retires → (s.door d).pendingExit = none →
              (s.door (partner d)).pendingExit = none →
              Happens (.lapse d) s
                [.doors, .permits, .records, .watches, .lists, .pairs, .zones, .alarms, .overflow, .lostCount] fun t =>
                t.door d = (s.door d).atRest .secured ∧ s.RetiresAdmitted g t
                  ∧ CauseEnded ⟨.forcedDoor, some (roomOf d), some d, none, none⟩ t)))
    ∧ ∀ (s : State) (d : DoorNo) (ms : Nat), s.Live → (s.door d).state = .opened → (s.door d).stepDeadline = some ms →
      (s.uptimeMs < ms → exec (.heldOpenLimit d) s = .next s)
        ∧ (ms ≤ s.uptimeMs →
          Happens (.heldOpenLimit d) s [.doors, .watches, .alarms, .overflow, .lostCount] fun t =>
            t.door d = { s.door d with held := min ((s.door d).held + 1) 255, stepDeadline := none }
              ∧ (∀ e, e ≠ d → t.door e = s.door e)
              ∧ s.RaisesOrLoses ⟨.doorHeld, some (roomOf d), some d, none, none⟩ t)

/-- The end of the re-bolt delay (R43, R56): with a grant its passage is complete, passages counts up and each record the
grant names moves by its row; without one no passage is counted. The grant becomes absent and the door goes to BOLTING, or
in HOLD_OPEN to RELEASED without a grant, and its pending exit is tested (R63); a bolt that reads THROWN makes it SECURED
at once (R51, R57). That an expiry before its deadline changes nothing (log 3), that a bolt THROWN is taken before the
door's own pending exit is tested, so that the cause of FORCED_DOOR ends first (log 19), and that this exit begins also at
a door RELEASED in HOLD_OPEN (log 44), are the model's choices. -/
def Obligations.PassageCompletes : Prop :=
  ∀ (s : State) (d : DoorNo) (ms : Nat) (x y : Door), s.Live → (s.door d).state = .closedWait →
    (s.door d).stepDeadline = some ms →
    x = (if (s.door d).effMode = .holdOpen then (s.door d).atRest .released else s.boltingFrom d (s.door d)) →
    y = (s.door d).atRest .secured →
    (s.uptimeMs < ms → exec (.reboltDelayEnd d) s = .next s)
      ∧ (ms ≤ s.uptimeMs → (s.door d).grant = none →
        ((s.door d).effMode = .holdOpen ∨ (s.door d).bolt ≠ some .thrown →
            Happens (.reboltDelayEnd d) s [.doors] fun t =>
              s.TestsPending d x (t.door d) ∧ ∀ e, e ≠ d → t.door e = s.door e)
          ∧ ((s.door d).effMode ≠ .holdOpen → (s.door d).bolt = some .thrown →
            Happens (.reboltDelayEnd d) s [.doors, .alarms] fun t =>
              s.Secures d y t ∧ CauseEnded ⟨.forcedDoor, some (roomOf d), some d, none, none⟩ t))
      ∧ (∀ g, ms ≤ s.uptimeMs → (s.door d).grant = some g →
        ((s.door d).effMode = .holdOpen ∨ (s.door d).bolt ≠ some .thrown → (s.door d).NamesApart g →
            Happens (.reboltDelayEnd d) s
              [.doors, .permits, .records, .watches, .lists, .pairs, .zones, .alarms, .overflow, .lostCount] fun t =>
              s.TestsPending d { x with passages := (s.door d).passages + 1 } (t.door d) ∧ s.Passed g.kind d g.slots t
                ∧ (g.kind ≠ .exit ∨ isOuter d = false → ∀ e, e ≠ d → t.door e = s.door e)
                ∧ (g.kind = .anonymousExit → OnlyChanges [.doors, .changes] s t))
          ∧ ((s.door d).effMode ≠ .holdOpen → (s.door d).bolt = some .thrown →
            Happens (.reboltDelayEnd d) s
              [.doors, .permits, .records, .watches, .lists, .pairs, .zones, .alarms, .overflow, .lostCount] fun t =>
              s.Passed g.kind d g.slots t ∧ CauseEnded ⟨.forcedDoor, some (roomOf d), some d, none, none⟩ t
                ∧ (g.kind ≠ .exit ∨ isOuter d = false →
                  s.Secures d { y with passages := (s.door d).passages + 1 } t)
                ∧ ((s.door d).pendingExit = none → (s.door (partner d)).pendingExit = none →
                  t.door d = { y with passages := (s.door d).passages + 1 })))

/-- The inputs of a PRESENT door station, validated by the second equal answer (R53 to R58, R60, R62, R86, R87, R129,
R130). Its contact becoming OPEN forces a SECURED door, which counts in forced, raises FORCED_DOOR and sets the strongroom
UNCERTAIN (R58); opens a door UNBOLTING, RELEASED or in CLOSED_WAIT under its grant; opens a BOLTING one without a grant
and sets it UNCERTAIN; and in FAULT opens it under the exit driven, or just sets it UNCERTAIN. Its contact becoming CLOSED
ends the cause of DOOR_HELD and takes OPEN to CLOSED_WAIT, or in HOLD_OPEN without a grant to RELEASED. Its bolt reading
becoming WITHDRAWN releases an UNBOLTING door and a FAULT that drives an exit, THROWN makes a BOLTING door SECURED, another
sends a closed SECURED door to BOLTING, and CONFLICT puts a door that holds no grant in FAULT. One press of request to exit
forms one ANONYMOUS_EXIT; panic and tamper raise PANIC and STATION_LOST, and their ends end the causes. That entry to FAULT
tests the pending exit is the model's choice (log 20). -/
def Obligations.DoorInputsTaken : Prop :=
  ∀ (s : State) (st : StationId) (d : DoorNo) (code old : Byte) (was now : DoorInputs) (x : Door),
    s.Validates st (.door d) code old → was = doorInputs old → now = doorInputs code →
    x = { s.door d with contact := some now.contact } →
    (now = { was with contact := .opened } → was.contact = .closed →
        Happens (.goodAnswer st ⟨code, none⟩) s
          [.stations, .doors, .uncertain, .zones, .watches, .alarms, .overflow, .lostCount] fun t =>
          t.station st = { s.station st with missed := 0, inputs := some code } ∧ (∀ v, v ≠ st → t.station v = s.station v)
            ∧ (∀ e, e ≠ d → t.door e = s.door e)
            ∧ (∀ r, r ≠ roomOf d → t.uncertain.get r = s.uncertain.get r)
            ∧ ((s.door d).state = .secured →
              t.door d = { x with
                  state := .opened
                  grant := none
                  stepDeadline := s.openUntil d x
                  forced := min (x.forced + 1) 255 }
                ∧ t.uncertain.get (roomOf d) = true
                ∧ s.RaisesOrLoses ⟨.forcedDoor, some (roomOf d), some d, none, none⟩ t)
            ∧ ((s.door d).state = .unbolting ∨ (s.door d).state = .released ∨ (s.door d).state = .closedWait →
              t.door d = { x with state := .opened, stepDeadline := s.openUntil d x } ∧ t.uncertain = s.uncertain)
            ∧ ((s.door d).state = .bolting →
              t.door d = { x with state := .opened, grant := none, stepDeadline := s.openUntil d x }
                ∧ t.uncertain.get (roomOf d) = true)
            ∧ ((s.door d).state = .fault .boltJam ∨ (s.door d).state = .fault .sensorConflict →
              ((s.door d).grant = none → t.door d = x ∧ t.uncertain.get (roomOf d) = true)
                ∧ ((s.door d).grant.isSome = true →
                  t.door d = { x with state := .opened, stepDeadline := s.openUntil d x } ∧ t.uncertain = s.uncertain)))
      ∧ (now = { was with contact := .closed } → was.contact = .opened →
        Happens (.goodAnswer st ⟨code, none⟩) s [.stations, .doors, .zones, .alarms] fun t =>
          (∀ e, e ≠ d → t.door e = s.door e) ∧ CauseEnded ⟨.doorHeld, some (roomOf d), some d, none, none⟩ t
            ∧ ((s.door d).state ≠ .opened → t.door d = x)
            ∧ ((s.door d).state = .opened → (s.door d).effMode = .holdOpen → (s.door d).grant = none →
              t.door d = x.atRest .released)
            ∧ ((s.door d).state = .opened → (s.door d).effMode ≠ .holdOpen ∨ (s.door d).grant.isSome = true →
              t.door d = { x with
                state := .closedWait
                stepDeadline := some (s.uptimeMs + 1000 * (s.doorSettings d).reboltDelay) }))
      ∧ (∀ b z, now = { was with bolt := b } → was.bolt ≠ b → z = { s.door d with bolt := some b } →
        (∀ g, b = .withdrawn → (s.door d).grant = some g →
            ((s.door d).state = .unbolting →
                Happens (.goodAnswer st ⟨code, none⟩) s [.stations, .doors] fun t =>
                  t.door d = s.releasedWith d z g.kind g.slots ∧ ∀ e, e ≠ d → t.door e = s.door e)
              ∧ ((s.door d).state = .fault .boltJam ∨ (s.door d).state = .fault .sensorConflict →
                Happens (.goodAnswer st ⟨code, none⟩) s [.stations, .doors] fun t =>
                  (t.door d = if z.contact = some .opened then
                      { z with state := .opened, stepDeadline := s.openUntil d z }
                    else s.releasedWith d z g.kind g.slots)
                    ∧ ∀ e, e ≠ d → t.door e = s.door e))
          ∧ (b = .withdrawn → (s.door d).state = .unbolting → (s.door d).grant = none → (s.door d).effMode = .holdOpen →
            Happens (.goodAnswer st ⟨code, none⟩) s [.stations, .doors] fun t =>
              t.door d = z.atRest .released ∧ ∀ e, e ≠ d → t.door e = s.door e)
          ∧ (b = .thrown → (s.door d).state = .bolting →
            Happens (.goodAnswer st ⟨code, none⟩) s [.stations, .doors, .alarms] fun t =>
              s.Secures d (z.atRest .secured) t
                ∧ CauseEnded ⟨.forcedDoor, some (roomOf d), some d, none, none⟩ t)
          ∧ (b = .withdrawn ∨ b = .between → (s.door d).state = .secured → (s.door d).contact = some .closed →
            Happens (.goodAnswer st ⟨code, none⟩) s [.stations, .doors] fun t =>
              s.TestsPending d (s.boltingFrom d z) (t.door d) ∧ ∀ e, e ≠ d → t.door e = s.door e)
          ∧ (b = .conflict → (s.door d).grant = none → (∀ c, (s.door d).state ≠ .fault c) →
            Happens (.goodAnswer st ⟨code, none⟩) s [.stations, .doors] fun t =>
              s.TestsPending d (z.atRest (.fault .sensorConflict)) (t.door d) ∧ ∀ e, e ≠ d → t.door e = s.door e))
      ∧ (now = { was with rte := true } → was.rte = false → s.CanBegin d → ¬ s.HeldUnbolted d →
        Happens (.goodAnswer st ⟨code, none⟩) s [.stations, .doors] fun t =>
          s.Begun d .anonymousExit [] (s.door d) (t.door d) ∧ ∀ e, e ≠ d → t.door e = s.door e)
      ∧ (now = { was with panic := true } → was.panic = false →
        Happens (.goodAnswer st ⟨code, none⟩) s [.stations, .watches, .alarms, .overflow, .lostCount] fun t =>
          s.RaisesOrLoses ⟨.panic, some (roomOf d), some d, none, some st⟩ t)
      ∧ (now = { was with panic := false } → was.panic = true →
        Happens (.goodAnswer st ⟨code, none⟩) s [.stations, .alarms] fun t =>
          CauseEnded ⟨.panic, some (roomOf d), some d, none, some st⟩ t)
      ∧ (now = { was with tamper := true } → was.tamper = false →
        Happens (.goodAnswer st ⟨code, none⟩) s [.stations, .watches, .alarms, .overflow, .lostCount] fun t =>
          s.RaisesOrLoses ⟨.stationLost, some (roomOf d), some d, none, some st⟩ t)
      ∧ (now = { was with tamper := false } → was.tamper = true →
        Happens (.goodAnswer st ⟨code, none⟩) s [.stations, .alarms] fun t =>
          CauseEnded ⟨.stationLost, some (roomOf d), some d, none, some st⟩ t)

/-- The return of a door's station (R61, R63, R68, R85): its second equal answer makes it PRESENT, and the door in FAULT
STATION_LOST is recomputed from the contact and bolt reading: SECURED, RELEASED without a grant (BOLTING at once in a mode
that asks for it), BOLTING, OPEN with its strongroom UNCERTAIN, or FAULT SENSOR_CONFLICT. Its pending exit is then tested,
and a waiting HOLD_OPEN withdraws from SECURED and BOLTING. Without the tamper input the cause of STATION_LOST ends, and
with the contact CLOSED that of DOOR_HELD. A request to exit that is active at the return forms no exit (R62). -/
def Obligations.StationReturnRecomputesDoor : Prop :=
  ∀ (s : State) (st : StationId) (d : DoorNo) (code : Byte) (now : DoorInputs) (z x : Door), s.Live →
    s.supervised st = true → (s.entry st).role = .door d → codeListed (.door d) code = true →
    (s.station st).presence ≠ .present → (s.station st).handshake = .idle → (s.station st).candidate = some code →
    (s.door d).state = .fault .stationLost → (s.door (partner d)).pendingExit = none →
    (s.door (partner d)).effMode ≠ .holdOpen → now = doorInputs code →
    z = { s.door d with contact := some now.contact, bolt := some now.bolt } →
    x = (match now.contact, now.bolt with
      | _, .conflict => z.atRest (.fault .sensorConflict)
      | .closed, .thrown => z.atRest .secured
      | .closed, .withdrawn =>
        if z.effMode = .holdOpen then z.atRest .released
        else if z.effMode = .normal then
          { z with
            state := .released
            grant := none
            stepDeadline := some (s.uptimeMs + 1000 * (s.doorSettings d).grantTime) }
        else s.boltingFrom d z
      | .closed, .between => s.boltingFrom d z
      | .opened, _ => { z with state := .opened, grant := none, stepDeadline := s.openUntil d z }) →
    Happens (.goodAnswer st ⟨code, none⟩) s
      [.stations, .doors, .uncertain, .zones, .watches, .alarms, .overflow, .lostCount] fun t =>
        t.station st = { s.station st with missed := 0, presence := .present, inputs := some code }
          ∧ (∀ v, v ≠ st → t.station v = s.station v)
          ∧ (∀ e, e ≠ d → t.door e = s.door e)
          ∧ (z.effMode ≠ .holdOpen → s.TestsPending d x (t.door d))
          ∧ (z.effMode = .holdOpen → z.pendingExit = none → (s.door (partner d)).state = .secured →
            t.door d = if x.state = .secured ∨ x.state = .bolting then
                { x with
                  state := .unbolting
                  stepDeadline := some (s.uptimeMs + 1000 * (s.doorSettings d).travelLimit) }
              else x)
          ∧ (now.contact = .opened → now.bolt ≠ .conflict → t.uncertain.get (roomOf d) = true)
          ∧ (now.contact = .closed ∨ now.bolt = .conflict → t.uncertain = s.uncertain)
          ∧ (∀ r, r ≠ roomOf d → t.uncertain.get r = s.uncertain.get r)
          ∧ (now.contact = .closed → CauseEnded ⟨.doorHeld, some (roomOf d), some d, none, none⟩ t)
          ∧ (now.tamper = false → CauseEnded ⟨.stationLost, some (roomOf d), some d, none, some st⟩ t)

/-! ### Suppression zones (R97 to R123) -/

/-- ISOLATE ZONE (R118): BAD_VALUE for the number, then the checks in their order; a REFUSED answer writes its cause into
the zone's isolation refusal and nothing else, and that write is marked (R166); a PRIVILEGE answer writes nothing; and a
request that passes makes the zone ISOLATED and the isolation refusal absent. -/
def Obligations.IsolateZoneChecksAndIsolates : Prop :=
  ∀ (s : State) (index : BitVec 16), s.Ready → ModesComputed s →
    (16 ≤ index.toNat → OnlyAnswers (.isolateZone index) s ⟨.badValue, []⟩)
      ∧ ∀ z : Room, index.toNat = z.val →
        (s.keyOn = false → OnlyAnswers (.isolateZone index) s ⟨.privilege, []⟩)
          ∧ (s.keyOn = true →
            (s.inContact z = false → s.IsolationRefused index z .stationLost [0x06])
              ∧ (s.inContact z = true →
                ((s.zone z).Detects → s.IsolationRefused index z .detectorActive [0x05])
                  ∧ (¬ (s.zone z).Detects → (s.zone z).state ≠ .normal →
                    s.IsolationRefused index z .notNormal [0x04])
                  ∧ (¬ (s.zone z).Detects → (s.zone z).state = .normal →
                    Takes (.isolateZone index) s ⟨.ok, []⟩ [.zones] fun t =>
                      t.zone z = { s.zone z with state := .isolated, isolationRefusal := none }
                        ∧ ∀ y, y ≠ z → t.zone y = s.zone y)))

/-- RESTORE ZONE (R119): PRIVILEGE, then WRONG_STATE unless ISOLATED, then DETECTOR_ACTIVE; a request that passes returns
the zone to NORMAL, cancels no grant and changes no door mode. RESET ZONE (R117): the refusals in their order,
WRONG_STATE, PRIVILEGE, STATION_LOST, DETECTOR_ACTIVE; taken, the zone is NORMAL with its fields at rest, the doors return
to their base modes, and from RELEASE_FAILED the cause of SUPPRESSION_FAILED ends. The detector and switch fields keep
their values. From FIRST_ALARM no door and no UNCERTAIN flag changes. From DISCHARGED and RELEASE_FAILED a door takes its
base mode as R65 gives: its state and grant are kept and its held-open timer follows the mode (R55; also where it has run
out in this stay, log 37), a door of base mode HOLD_OPEN withdraws or waits and sets the strongroom UNCERTAIN (R68), and
one RELEASED without a grant goes to BOLTING in LOCKDOWN and OUT_OF_SERVICE (R54, R67). The UNCERTAIN flag of a strongroom
with no such door, and every other, is left as it stands. -/
def Obligations.RestoreAndResetZone : Prop :=
  (∀ (s : State) (index : BitVec 16), s.Ready → ModesComputed s →
      (16 ≤ index.toNat → OnlyAnswers (.restoreZone index) s ⟨.badValue, []⟩)
        ∧ ∀ z : Room, index.toNat = z.val →
          (s.keyOn = false → OnlyAnswers (.restoreZone index) s ⟨.privilege, []⟩)
            ∧ (s.keyOn = true →
              ((s.zone z).state ≠ .isolated → OnlyAnswers (.restoreZone index) s ⟨.refused, [0x03]⟩)
                ∧ ((s.zone z).state = .isolated →
                  ((s.zone z).Detects → OnlyAnswers (.restoreZone index) s ⟨.refused, [0x05]⟩)
                    ∧ (¬ (s.zone z).Detects →
                      Takes (.restoreZone index) s ⟨.ok, []⟩ [.zones] fun t =>
                        t.zone z = { s.zone z with state := .normal } ∧ ∀ y, y ≠ z → t.zone y = s.zone y))))
    ∧ (∀ (s : State) (index : BitVec 16), s.Ready →
      (16 ≤ index.toNat → OnlyAnswers (.resetZone index) s ⟨.badValue, []⟩)
        ∧ ∀ z : Room, index.toNat = z.val →
          ((s.zone z).state = .normal ∨ (s.zone z).state = .isolated ∨ (s.zone z).state = .predischarge
              ∨ (s.zone z).state = .held ∨ (s.zone z).state = .releasing →
            OnlyAnswers (.resetZone index) s ⟨.refused, [0x03]⟩)
            ∧ ((s.zone z).state = .discharged ∨ (s.zone z).state = .releaseFailed → s.keyOn = false →
              OnlyAnswers (.resetZone index) s ⟨.privilege, []⟩)
            ∧ ((s.zone z).state = .firstAlarm
                ∨ (((s.zone z).state = .discharged ∨ (s.zone z).state = .releaseFailed) ∧ s.keyOn = true) →
              (s.inContact z = false → OnlyAnswers (.resetZone index) s ⟨.refused, [0x06]⟩)
                ∧ (s.inContact z = true →
                  (s.zone z).detectorA ≠ .normal ∨ (s.zone z).detectorB ≠ .normal
                    ∨ ((s.zone z).state ≠ .firstAlarm ∧ (s.zone z).manualRelease = true) →
                  OnlyAnswers (.resetZone index) s ⟨.refused, [0x05]⟩)))
    ∧ ∀ (s : State) (index : BitVec 16) (z : Room), s.Ready → ModesComputed s → index.toNat = z.val →
        (s.zone z).state = .firstAlarm
          ∨ (((s.zone z).state = .discharged ∨ (s.zone z).state = .releaseFailed) ∧ s.keyOn = true
            ∧ (s.zone z).manualRelease = false) →
        s.inContact z = true → (s.zone z).detectorA = .normal → (s.zone z).detectorB = .normal →
        Takes (.resetZone index) s ⟨.ok, []⟩ [.zones, .doors, .uncertain, .alarms] fun t =>
          t.zone z = { s.zone z with
              state := .normal
              holdReasons := ⟨false, false, false, false, false⟩
              countdown := none
              heldFor := 0
              trappedRaised := false
              attempt := .none
              pulseEnd := none
              confirmEnd := none
              mainFire := false
              reserveFire := false
              countsDue := 0 }
            ∧ (∀ y, y ≠ z → t.zone y = s.zone y)
            ∧ (∀ d, roomOf d = z → (t.door d).effMode = (s.door d).baseMode.effective)
            ∧ (∀ d, roomOf d ≠ z → t.door d = s.door d)
            ∧ ((s.zone z).state = .firstAlarm → t.doors = s.doors ∧ t.uncertain = s.uncertain)
            ∧ ((s.zone z).state ≠ .firstAlarm → (∃ d, roomOf d = z ∧ (s.door d).baseMode = .holdOpen) →
              t.uncertain.get z = true)
            ∧ ((∀ d, roomOf d = z → (s.door d).baseMode ≠ .holdOpen) → t.uncertain = s.uncertain)
            ∧ (∀ r, r ≠ z → t.uncertain.get r = s.uncertain.get r)
            ∧ (∀ d, roomOf d = z → (s.zone z).state ≠ .firstAlarm →
              ¬ ((s.door (partner d)).ReboltsOn (s.door (partner d)).baseMode.effective
                ∧ (s.door (partner d)).bolt = some .thrown) →
              ((s.door d).baseMode ≠ .holdOpen → ¬ (s.door d).ReboltsOn (s.door d).baseMode.effective →
                  t.door d = s.inMode d (s.door d) (s.door d).baseMode.effective)
                ∧ ((s.door d).ReboltsOn (s.door d).baseMode.effective → (s.door d).bolt ≠ some .thrown →
                  (s.door d).pendingExit = none →
                  t.door d = s.boltingFrom d { s.door d with effMode := (s.door d).baseMode.effective })
                ∧ ((s.door d).baseMode = .holdOpen → (s.door (partner d)).baseMode ≠ .holdOpen →
                  s.WithdrawsFor d (s.inMode d (s.door d) .holdOpen) (t.door d)))
            ∧ ((s.zone z).state = .releaseFailed → CauseEnded ⟨.suppressionFailed, some z, none, none, none⟩ t)

/-- Confirmed fire (R98, R102, R103): a set of zone inputs that leaves both detectors in ALARM, or the manual release
active, takes a zone in NORMAL or FIRST_ALARM to PREDISCHARGE with its countdown, and its doors to EGRESS. -/
def Obligations.ConfirmedFireStartsCountdown : Prop :=
  ∀ (s : State) (st : StationId) (z : Room) (code old : Byte) (i j : ZoneInputs), s.Live → s.supervised st = true →
    (s.entry st).role = .zone z → (s.station st).presence = .present → (s.station st).handshake = .idle →
    (s.station st).candidate = some code → (s.station st).inputs = some old →
    zoneInputs? code = some i → zoneInputs? old = some j → i.zonePart ≠ j.zonePart →
    (i.detectorA = .alarm ∧ i.detectorB = .alarm) ∨ i.manualRelease = true → i.abort = false →
    (s.zone z).state = .normal ∨ (s.zone z).state = .firstAlarm →
    Happens (.goodAnswer st ⟨code, none⟩) s
      [.stations, .zones, .doors, .pairs, .permits, .records, .watches, .lists, .alarms, .overflow, .lostCount]
      fun t =>
        t.zone z = { s.zone z with
            state := .predischarge
            countdown := some (s.uptimeMs + 1000 * (s.zoneSettings z).predischarge)
            attempt := .none
            heldFor := 0
            detectorA := i.detectorA
            detectorB := i.detectorB
            abort := false
            manualRelease := i.manualRelease
            pressure := i.pressure }
          ∧ (∀ y, y ≠ z → (s.zone y).state ≠ .held → t.zone y = s.zone y)
          ∧ (∀ d, roomOf d = z → (t.door d).effMode = .egress)
          ∧ (t.pair z = none ∨ (s.zone z).state = .firstAlarm)

/-- The other sets of zone inputs (R66, R98, R99, R102, R103, R105, R109, R112). In NORMAL one detector in ALARM and no
manual release make FIRST_ALARM: entry grants in UNBOLTING and RELEASED end, retire the ADMITTED records they name and send
their doors to BOLTING, the pending pair is dropped, and no effective mode changes. Confirmed fire with the abort switch
active goes to HELD in the same event. In PREDISCHARGE an active abort switch ends the countdown and holds the zone with
every reason that stands. In HELD the end of the abort removes its reason; the last reason gone, the zone counts the resume
time in PREDISCHARGE and the cause of TRAPPED ends. In RELEASING an active pressure switch makes the zone DISCHARGED, with
both fire outputs off. In ISOLATED the fields change and nothing else (R119). -/
def Obligations.ZoneInputsDecide : Prop :=
  ∀ (s : State) (st : StationId) (z : Room) (code old : Byte) (i j : ZoneInputs) (x : Zone),
    s.Validates st (.zone z) code old → ModesComputed s → zoneInputs? code = some i → zoneInputs? old = some j →
    i.zonePart ≠ j.zonePart → x = (s.zone z).reading i →
    ((s.zone z).state = .normal → (i.detectorA = .alarm ↔ i.detectorB ≠ .alarm) → i.manualRelease = false →
        Happens (.goodAnswer st ⟨code, none⟩) s
          [.stations, .zones, .doors, .pairs, .permits, .records, .watches, .lists, .alarms, .overflow, .lostCount]
          fun t =>
            t.zone z = { x with state := .firstAlarm } ∧ t.pair z = none
              ∧ (∀ r, r ≠ z → (∀ h, s.pair r = some h → ∃ m, t.permit h.permit = some m) → t.pair r = s.pair r)
              ∧ (∀ d, (t.door d).effMode = (s.door d).effMode)
              ∧ ∀ d g, roomOf d = z → (s.door d).grant = some g → g.kind.isEntry = true →
                (s.door d).state = .unbolting ∨ (s.door d).state = .released →
                (g.Retires → s.RetiresAdmitted g t)
                  ∧ ((s.door d).pendingExit = none → (s.door d).effMode ≠ .holdOpen → (s.door d).bolt ≠ some .thrown →
                    t.door d = s.boltingFrom d (s.door d)))
      ∧ ((s.zone z).state = .normal ∨ (s.zone z).state = .firstAlarm →
        (i.detectorA = .alarm ∧ i.detectorB = .alarm) ∨ i.manualRelease = true → i.abort = true →
        Happens (.goodAnswer st ⟨code, none⟩) s
          [.stations, .zones, .doors, .pairs, .permits, .records, .watches, .lists, .alarms, .overflow, .lostCount]
          fun t =>
            t.zone z = { x with
                state := .held
                countdown := none
                attempt := .none
                holdReasons := t.conditions z
                heldFor := 0
                trappedRaised := false
                countsDue := 0 }
              ∧ (t.zone z).holdReasons.abort = true
              ∧ ∀ d, roomOf d = z → (t.door d).effMode = .egress)
      ∧ ((s.zone z).state = .predischarge → i.abort = true →
        Happens (.goodAnswer st ⟨code, none⟩) s [.stations, .zones, .watches, .alarms, .overflow, .lostCount] fun t =>
          t.zone z = { x with
            state := .held
            countdown := none
            holdReasons :=
              { abort := true
                occupied := decide (s.list z ≠ [])
                uncertain := s.uncertain.get z
                doorOpen := decide ((s.door (outerDoor z)).contact ≠ some .closed)
                  || decide ((s.door (innerDoor z)).contact ≠ some .closed)
                stationLost := !s.inContact z }
            heldFor := 0
            trappedRaised := false
            countsDue := 0 })
      ∧ (∀ r, (s.zone z).state = .held → (s.zone z).abort = true → (s.zone z).holdReasons.abort = true →
        i.abort = false → r = { (s.zone z).holdReasons with abort := false } →
        Happens (.goodAnswer st ⟨code, none⟩) s [.stations, .zones, .watches, .alarms, .overflow, .lostCount] fun t =>
          (r ≠ ⟨false, false, false, false, false⟩ → t.zone z = { x with holdReasons := r })
            ∧ (r = ⟨false, false, false, false, false⟩ →
              t.zone z = { x with
                  state := .predischarge
                  holdReasons := r
                  countdown := some (s.uptimeMs + 1000 * (s.zoneSettings z).resume)
                  heldFor := 0
                  trappedRaised := false
                  countsDue := 0 }
                ∧ CauseEnded ⟨.trapped, some z, none, none, none⟩ t))
      ∧ ((s.zone z).state = .releasing → (s.zone z).confirmEnd.isSome = true → i.pressure = true →
        Happens (.goodAnswer st ⟨code, none⟩) s [.stations, .zones, .watches, .alarms, .overflow, .lostCount] fun t =>
          t.zone z = { x with
            state := .discharged
            mainFire := false
            reserveFire := false
            pulseEnd := none
            confirmEnd := none })
      ∧ ((s.zone z).state = .isolated →
        Happens (.goodAnswer st ⟨code, none⟩) s [.stations, .zones, .watches, .alarms, .overflow, .lostCount] fun t =>
          t.zone z = x ∧ ∀ y, y ≠ z → t.zone y = s.zone y)

/-- The countdown's end (R107, R112): with no hold reason standing the zone goes to RELEASING and fires its main actuator
(or, its pressure switch already active, is DISCHARGED at once); otherwise it goes to HELD with exactly the reasons that
stand, held_for 0 and trapped raised clear. The attempts run on (R112, R113): the end of an actuator pulse sets the fire
output that is on off; the confirm window's end without confirmation begins the reserve attempt after the main one, and
after the reserve attempt makes the zone RELEASE_FAILED and raises SUPPRESSION_FAILED. That an expiry before its deadline
changes nothing is the model's choice (log 3). -/
def Obligations.CountdownEndAndAttempts : Prop :=
  (∀ (s : State) (z : Room) (ms : Nat), s.Live → ModesComputed s → (s.zone z).state = .predischarge →
      (s.zone z).countdown = some ms →
      (s.uptimeMs < ms → exec (.countdownEnd z) s = .next s)
        ∧ (ms ≤ s.uptimeMs → s.ReleaseSafe z → (s.zone z).pressure = false →
          Happens (.countdownEnd z) s [.zones, .doors, .alarms] fun t =>
            t.zone z = { s.zone z with
                state := .releasing
                countdown := none
                attempt := .main
                mainFire := true
                reserveFire := false
                pulseEnd := some (s.uptimeMs + 500)
                confirmEnd := some (s.uptimeMs + 1000 * (s.zoneSettings z).confirmWindow) }
              ∧ (∀ y, y ≠ z → t.zone y = s.zone y)
              ∧ (∀ d, roomOf d = z → (t.door d).effMode = .sealed)
              ∧ ∀ d, roomOf d ≠ z → t.door d = s.door d)
        ∧ (ms ≤ s.uptimeMs → s.ReleaseSafe z → (s.zone z).pressure = true →
          Happens (.countdownEnd z) s [.zones, .doors, .alarms] fun t =>
            (t.zone z).state = .discharged ∧ (t.zone z).attempt = .main ∧ (t.zone z).mainFire = false
              ∧ (t.zone z).reserveFire = false ∧ (t.zone z).pulseEnd = none ∧ (t.zone z).confirmEnd = none)
        ∧ (ms ≤ s.uptimeMs → ¬ s.ReleaseSafe z →
          Happens (.countdownEnd z) s [.zones] fun t =>
            t.zone z = { s.zone z with
                state := .held
                countdown := none
                holdReasons :=
                  { abort := (s.zone z).abort
                    occupied := decide (s.list z ≠ [])
                    uncertain := s.uncertain.get z
                    doorOpen := decide ((s.door (outerDoor z)).contact ≠ some .closed)
                      || decide ((s.door (innerDoor z)).contact ≠ some .closed)
                    stationLost := !s.inContact z }
                heldFor := 0
                trappedRaised := false
                countsDue := 0 }
              ∧ ∀ y, y ≠ z → t.zone y = s.zone y))
    ∧ (∀ (s : State) (z : Room) (ms : Nat), s.Live → (s.zone z).pulseEnd = some ms →
      (s.uptimeMs < ms → exec (.pulseEnd z) s = .next s)
        ∧ (ms ≤ s.uptimeMs →
          Happens (.pulseEnd z) s [.zones] fun t =>
            t.zone z = { s.zone z with mainFire := false, reserveFire := false, pulseEnd := none }
              ∧ ∀ y, y ≠ z → t.zone y = s.zone y))
    ∧ ∀ (s : State) (z : Room) (ms : Nat), s.Live → ModesComputed s → (s.zone z).state = .releasing →
        (s.zone z).confirmEnd = some ms →
        (s.uptimeMs < ms → exec (.confirmEnd z) s = .next s)
          ∧ (ms ≤ s.uptimeMs → (s.zone z).attempt = .main → (s.zone z).pressure = false →
            Happens (.confirmEnd z) s [.zones] fun t =>
              t.zone z = { s.zone z with
                  countdown := none
                  attempt := .reserve
                  mainFire := false
                  reserveFire := true
                  pulseEnd := some (s.uptimeMs + 500)
                  confirmEnd := some (s.uptimeMs + 1000 * (s.zoneSettings z).confirmWindow) }
                ∧ ∀ y, y ≠ z → t.zone y = s.zone y)
          ∧ (ms ≤ s.uptimeMs → (s.zone z).attempt = .reserve →
            Happens (.confirmEnd z) s [.zones, .watches, .alarms, .overflow, .lostCount] fun t =>
              t.zone z = { s.zone z with
                  state := .releaseFailed
                  mainFire := false
                  reserveFire := false
                  pulseEnd := none
                  confirmEnd := none }
                ∧ (∀ y, y ≠ z → t.zone y = s.zone y)
                ∧ s.RaisesOrLoses ⟨.suppressionFailed, some z, none, none, none⟩ t)

/-! ### Alarms and watches (R124 to R145) -/

/-- READ ALARM, ACKNOWLEDGE ALARM, CLEAR ALARM and CLEAR LOST COUNT (R131, R132, R133, R144): BAD_VALUE for the slot,
NOT_FOUND for a free one, else every field of the record; for the two that act, WRONG_STATE while the supply is LOW,
NOT_FOUND for a free slot; an acknowledgement changes the record's state only; a record that is RAISED or whose cause is
present is not cleared; a cleared one is removed, and the watch that a LONE_WORKER record names takes the end of its alarm
(R141). Where the overflow condition stands the clearing clears it and takes the catch-up raises of R139: the lowest slot
at stage 3 that no record names takes the slot just freed, and either every watch at stage 3 is then named or a raise was
lost again, which sets the overflow condition. The lost count goes to 0 and the overflow condition stays. That the refusal
in LOW comes between the slot's range and its occupation is the model's choice (log 16), and so is FFh for an absent
strongroom (log 43). -/
def Obligations.AlarmRequests : Prop :=
  ∀ (s : State) (index : BitVec 16), s.Ready →
    (24 ≤ index.toNat →
        OnlyAnswers (.readAlarm index) s ⟨.badValue, []⟩ ∧ OnlyAnswers (.acknowledgeAlarm index) s ⟨.badValue, []⟩
          ∧ OnlyAnswers (.clearAlarm index) s ⟨.badValue, []⟩)
      ∧ Takes .clearLostCount s ⟨.ok, []⟩ [.lostCount] (fun t => t.lostCount = 0)
      ∧ ∀ i : AlarmSlot, index.toNat = i.val →
        (s.alarm i = none → OnlyAnswers (.readAlarm index) s ⟨.notFound, []⟩)
          ∧ (∀ a, s.alarm i = some a →
            OnlyAnswers (.readAlarm index) s
              ⟨.ok, [byte a.key.kind.code, byte a.key.kind.severity, optByte (a.key.room.map Fin.val),
                  optByte (a.key.door.map Fin.val), optByte (a.key.occupant.map Fin.val)]
                ++ num2 ((a.permit.map Fin.val).getD 0xFFFF)
                ++ [optByte (a.key.station.map Fin.val), flag a.acknowledged,
                  (match a.cause with | none => 0xFF | some c => flag c)]
                ++ num4 a.firstRaised ++ [byte a.repeats]⟩)
          ∧ (s.inLow = true →
            OnlyAnswers (.acknowledgeAlarm index) s ⟨.refused, [0x03]⟩
              ∧ OnlyAnswers (.clearAlarm index) s ⟨.refused, [0x03]⟩)
          ∧ (s.inLow = false → s.alarm i = none →
            OnlyAnswers (.acknowledgeAlarm index) s ⟨.notFound, []⟩ ∧ OnlyAnswers (.clearAlarm index) s ⟨.notFound, []⟩)
          ∧ (∀ a, s.inLow = false → s.alarm i = some a →
            (a.acknowledged = true → OnlyAnswers (.acknowledgeAlarm index) s ⟨.ok, []⟩)
              ∧ (Takes (.acknowledgeAlarm index) s ⟨.ok, []⟩ [.alarms] fun t =>
                t.alarm i = some { a with acknowledged := true } ∧ ∀ j, j ≠ i → t.alarm j = s.alarm j)
              ∧ (a.acknowledged = false ∨ a.cause = some true →
                OnlyAnswers (.clearAlarm index) s ⟨.refused, [0x03]⟩)
              ∧ (a.acknowledged = true → a.cause ≠ some true →
                (s.overflow = false →
                    Takes (.clearAlarm index) s ⟨.ok, []⟩ [.alarms, .watches] fun t =>
                      t.alarm i = none ∧ (∀ j, j ≠ i → t.alarm j = s.alarm j)
                        ∧ (∀ u, ¬ (a.key.kind = .loneWorker ∧ a.key.occupant = some u) → t.watch u = s.watch u)
                        ∧ (∀ u x w, a.key.kind = .loneWorker → a.key.occupant = some u → s.occupant u = some x →
                          x.watch = some w → w.stage = .three →
                          (s.qualifies x = true →
                              (t.watch u).map (fun v => (v.stage, v.deadline))
                                = some (.zero, some (s.uptimeMs + 60000 * (s.zoneSettings x.room).checkIn)))
                            ∧ (s.qualifies x = false → t.watch u = none))
                        ∧ (∀ u w, s.watch u = some w → w.stage ≠ .three → t.watch u = some w))
                  ∧ (s.overflow = true → (∀ u w, s.watch u = some w → w.stage ≠ .three) →
                    Takes (.clearAlarm index) s ⟨.ok, []⟩ [.alarms, .overflow] fun t =>
                      t.alarm i = none ∧ (∀ j, j ≠ i → t.alarm j = s.alarm j) ∧ t.overflow = false)
                  ∧ (s.overflow = true →
                    Takes (.clearAlarm index) s ⟨.ok, []⟩ [.alarms, .overflow, .watches, .lostCount] fun t =>
                      (t.overflow = true
                          ∨ (t.lostCount = s.lostCount ∧ ∀ u w, t.watch u = some w → w.stage = .three →
                            ∃ j b, t.alarm j = some b ∧ b.NamesLoneWorker u))
                        ∧ (∀ u w, s.watch u = some w → w.stage ≠ .three → t.watch u = some w)
                        ∧ ∀ o x w, s.occupant o = some x → x.watch = some w → w.stage = .three →
                          (∀ j b, s.alarm j = some b → ¬ b.NamesLoneWorker o) →
                          (∀ u v, u < o → s.watch u = some v → v.stage = .three →
                            ∃ j b, s.alarm j = some b ∧ b.NamesLoneWorker u) →
                          (∃ j b, t.alarm j = some b ∧ b.key = ⟨.loneWorker, some x.room, none, some o, none⟩
                              ∧ b.permit = some x.permit ∧ b.acknowledged = false ∧ b.cause = some true)
                            ∧ (t.watch o).map (fun v => (v.stage, v.deadline)) = some (.three, none))))

/-- The watch deadlines (R138): stage 0 goes to 1 and stage 1 to 2, each with its grace time added to the instant of
the deadline reached (R148). LONE_WORKER (R138, R139): on reaching stage 3, and again at each repeat deadline, the
watch raises it naming the strongroom and the slot. Placed, the deadline becomes absent; lost, it is 60 s on, from the
present uptime the first time and from the deadline reached at a repeat. That an expiry before its deadline changes
nothing is the model's choice (log 3). -/
def Obligations.WatchDeadlinesAdvanceAndRaise : Prop :=
  (∀ (s : State) (o : Slot) (w : Watch) (ms : Nat), s.Live → s.watch o = some w → w.deadline = some ms →
      (s.uptimeMs < ms → exec (.watchDeadline o) s = .next s)
        ∧ (ms ≤ s.uptimeMs → w.stage = .zero →
          Happens (.watchDeadline o) s [.watches] fun t =>
            (t.watch o).map (fun v => (v.stage, v.deadline)) = some (.one, some (ms + 1000 * s.settings.grace1))
              ∧ ∀ u, u ≠ o → t.watch u = s.watch u)
        ∧ (ms ≤ s.uptimeMs → w.stage = .one →
          Happens (.watchDeadline o) s [.watches] fun t =>
            (t.watch o).map (fun v => (v.stage, v.deadline)) = some (.two, some (ms + 1000 * s.settings.grace2))
              ∧ ∀ u, u ≠ o → t.watch u = s.watch u))
    ∧ ∀ (s : State) (o : Slot) (x : Occupant) (w : Watch) (ms : Nat), s.Live → s.occupant o = some x →
      x.watch = some w → w.deadline = some ms → ms ≤ s.uptimeMs →
      (w.stage = .two →
          Happens (.watchDeadline o) s [.watches, .alarms, .overflow, .lostCount] fun t =>
            s.LoneWorkerTaken o x.room (s.uptimeMs + 60000) t)
        ∧ (w.stage = .three →
          Happens (.loneWorkerRepeat o) s [.watches, .alarms, .overflow, .lostCount] fun t =>
            s.LoneWorkerTaken o x.room (ms + 60000) t)

/-- The watch follows the qualification of its record (R136, R137), whatever command brings the change: at every event in
which the hours decision changes, a record of the strongroom comes into or out of INSIDE or leaves the roster, or the
permit's watch_always changes, an absent watch of a record that qualifies starts at stage 0 with a full period, one below
stage 3 of a record that does not qualify ends, and one of a record that does runs on; in every other event it stays. Left
out are the events that act on the watch itself: its deadline, a check-in, and the supply restart, which first extends the
deadline by the time in LOW since it was last set (R145). A watch at stage 3 does not end when its record stops qualifying.
-/
def Obligations.WatchFollowsQualification : Prop :=
  (∀ (c : Instr) (s t : State) (o : Slot) (x y : Occupant), exec c s = .next t → s.occupant o = some x →
      t.occupant o = some y → (∀ w, x.watch = some w → w.stage ≠ .three) → c ≠ .watchDeadline o → c ≠ .supplyRestart →
      (∀ l st q, c = .presentationDecided l → s.handedStation l = some st → (s.station st).handshake = .handed q →
        q.face ≠ .checkIn) →
      s.Evaluated t x.watch y)
    ∧ (∀ (s t : State) (p : LowPeriod) (o : Slot) (x y : Occupant), s.running = true → s.supply = .low p →
      exec .supplyRestart s = .next t → s.occupant o = some x → t.occupant o = some y →
      (∀ w, x.watch = some w → w.stage ≠ .three) →
      s.Evaluated t
        (x.watch.map fun w =>
          { w with deadline := w.deadline.map fun ms => ms + (s.uptimeMs - max p.since w.setAt) }) y)
    ∧ ∀ (c : Instr) (s t : State) (o : Slot) (w : Watch), exec c s = .next t →
      (c = .minuteBoundary ∨ (∃ m sec, c = .setClock m sec) ∨ (∃ i f, c = .writeWindow i f) ∨ ∃ i a, c = .amendPermit i a) →
      s.watch o = some w → w.stage = .three → t.watch o = some w

/-- UNESCORTED follows the roster lists, whatever command changes them. While the supply is NORMAL, the condition of every
strongroom whose list changes in an event is compared before and after it: the alarm is raised, or the raise is lost in a
full table (R127), or its cause ends, or neither (R143). Entry to LOW notes the condition of every strongroom; in LOW that
note stands, and nothing is raised or ended (R144, R183). At the supply restart the condition noted is compared with the
condition after the restart, whose lapsing grants may change the lists again (R145). -/
def Obligations.UnescortedFollowsLists : Prop :=
  (∀ (c : Instr) (s t : State) (r : Room), s.running = true → s.inLow = false → exec c s = .next t →
      t.list r ≠ s.list r → s.UnescortedCompared r (s.Unescorted r) (t.Unescorted r) t)
    ∧ (∀ s : State, s.Live → ∃ t p, exec .supplyLow s = .next t ∧ t.supply = .low p
      ∧ ∀ r, p.unescorted.get r = true ↔ s.Unescorted r)
    ∧ (∀ (c : Instr) (s t : State) (p : LowPeriod), s.running = true → s.supply = .low p → exec c s = .next t →
      t.inLow = true → t.supply = .low p ∧ ∀ r, s.UnescortedKept r t)
    ∧ ∀ (s : State) (p : LowPeriod), s.running = true → s.supply = .low p →
      ∃ t, exec .supplyRestart s = .next t
        ∧ ∀ r, s.UnescortedCompared r (p.unescorted.get r = true) (t.Unescorted r) t

/-- Taking a raise in the table (R126, R127): a record with its key is repeated in place; else the lowest free slot
takes it RAISED; in a full table the replaceable record is replaced, and with none the raise is lost. -/
def Obligations.RaiseTakenInOrder : Prop :=
  ∀ (s : State) (r : AlarmRaise),
    (∀ i a, s.alarm i = some a → a.key = r.key → (∀ j b, j < i → s.alarm j = some b → b.key ≠ r.key) →
        (s.takeRaise r).1 = s.setAlarm i (some { a with
          repeats := min (a.repeats + 1) 255
          cause := r.key.kind.raisedCause
          acknowledged := false
          permit := r.permit }))
      ∧ (∀ i, (∀ j b, s.alarm j = some b → b.key ≠ r.key) → s.alarm i = none →
        (∀ j, j < i → s.alarm j ≠ none) →
        (s.takeRaise r).1 = s.setAlarm i (some ⟨r.key, r.permit, false, r.key.kind.raisedCause, s.uptimeMs / 1000, 0⟩))
      ∧ ((∀ j b, s.alarm j = some b → b.key ≠ r.key) → (∀ j, ∃ b, s.alarm j = some b ∧
          (b.acknowledged = false ∨ b.cause = some true)) →
        (s.takeRaise r).1 = { s with overflow := true, lostCount := min (s.lostCount + 1) 255 })
      ∧ (∀ i a, (∀ j b, s.alarm j = some b → b.key ≠ r.key) → (∀ j, s.alarm j ≠ none) → s.alarm i = some a →
        a.acknowledged = true → a.cause ≠ some true →
        (∀ j b, j ≠ i → s.alarm j = some b → b.acknowledged = true → b.cause ≠ some true →
          b.key.kind.severity < a.key.kind.severity
            ∨ (b.key.kind.severity = a.key.kind.severity
              ∧ (a.firstRaised < b.firstRaised ∨ (a.firstRaised = b.firstRaised ∧ i < j)))) →
        (s.takeRaise r).1.alarms
          = (s.setAlarm i (some ⟨r.key, r.permit, false, r.key.kind.raisedCause, s.uptimeMs / 1000, 0⟩)).alarms)

/-! ### The clock (R147 to R157) -/

/-- A new uptime second (R147): the counter stands at the next whole second, a valid wall clock counts one second, and
while the supply is NORMAL every zone in HELD with OCCUPIED or UNCERTAIN in its hold reasons counts held_for up to 900
(R97, R110), but for the count that brings it to the hold limit with trapped raised clear, which waits for its event. That
event, HOLD_LIMIT_REACHED, takes what waits: held_for has come to the hold limit, TRAPPED is raised, trapped raised is set,
and the zone stays HELD (R110). The model's choices are that the counter goes to the next whole second (log 2), that the
second after 59 is counted in the same minute, as a boundary that is due, its return to 0 and the next minute being
MINUTE_BOUNDARY's, where R149 makes them one event (log 4), that at the greatest uptime the command changes nothing, the
wall clock and held_for included (log 31), and that the count which reaches the limit is taken by the command of its own
(log 5): further counts wait with it, a second in which the zone does not count drops it, and a limit written above it
since is read before it is taken. -/
def Obligations.SecondsCountToHoldLimit : Prop :=
  (∀ s : State, s.running = true → s.handedRaises = [] →
      (s.uptimeMs / 1000 < 4294967295 →
          Happens .uptimeSecond s [.uptime, .wall, .zones] fun t =>
            t.uptimeMs = 1000 * (s.uptimeMs / 1000 + 1)
              ∧ (s.wall = none → t.wall = none)
              ∧ (∀ w, s.wall = some w → t.wall = some { w with seconds := w.seconds + 1 })
              ∧ (s.inLow = true → t.zones = s.zones)
              ∧ (s.inLow = false → ∀ z,
                ((s.zone z).state ≠ .held
                    ∨ ((s.zone z).holdReasons.occupied = false ∧ (s.zone z).holdReasons.uncertain = false) →
                  t.zone z = { s.zone z with countsDue := 0 })
                ∧ ∀ n, (s.zone z).state = .held →
                  (s.zone z).holdReasons.occupied = true ∨ (s.zone z).holdReasons.uncertain = true →
                  n = min ((s.zone z).heldFor + ((s.zone z).countsDue + 1)) 900 →
                  (n < (s.zoneSettings z).holdLimit ∨ (s.zone z).trappedRaised = true →
                      t.zone z = { s.zone z with heldFor := n, countsDue := 0 })
                    ∧ ((s.zoneSettings z).holdLimit ≤ n → (s.zone z).trappedRaised = false →
                      t.zone z = { s.zone z with countsDue := (s.zone z).countsDue + 1 })))
        ∧ (4294967295 ≤ s.uptimeMs / 1000 → exec .uptimeSecond s = .next s))
    ∧ ∀ (s : State) (z : Room) (n : Nat), s.Live → n = min ((s.zone z).heldFor + (s.zone z).countsDue) 900 →
      ((s.zone z).state = .held → (s.zone z).holdReasons.occupied = true ∨ (s.zone z).holdReasons.uncertain = true →
          (s.zone z).trappedRaised = false → 0 < (s.zone z).countsDue → (s.zoneSettings z).holdLimit ≤ n →
          Happens (.holdLimitReached z) s [.zones, .watches, .alarms, .overflow, .lostCount] fun t =>
            t.zone z = { s.zone z with heldFor := n, trappedRaised := true, countsDue := 0 }
              ∧ (∀ y, y ≠ z → t.zone y = s.zone y)
              ∧ s.RaisesOrLoses ⟨.trapped, some z, none, none, none⟩ t)
        ∧ ((s.zone z).state ≠ .held ∨ (s.zone z).countsDue = 0 ∨ n < (s.zoneSettings z).holdLimit
            ∨ (s.zone z).trappedRaised = true
            ∨ ((s.zone z).holdReasons.occupied = false ∧ (s.zone z).holdReasons.uncertain = false) →
          exec (.holdLimitReached z) s = .next s)

/-- The wall clock's own events. A minute boundary, in one event (R149, R17, R155): the second returns to 0 and the minute
number counts up by one, every expired permit that is not RETIRING is removed, or becomes RETIRING if it is linked, and the
hours decision is made for the new minute. After the last minute of the range the wall clock becomes invalid, the decision
is AFTER_HOURS, and no sweep is taken. That the boundary is a command of its own, due once the 60th second of the minute
has been counted, with later seconds kept in the new minute, and that it changes nothing where none is due, are the model's
choices (log 4, log 3). SET CLOCK (R150): a second above 59 is refused BAD_VALUE; otherwise the wall clock takes the value
and is valid, the sweep and the hours decision are made for the minute set, and CLOCK is marked, even where the value was
held already. -/
def Obligations.WallClockCarriesAndIsSet : Prop :=
  (∀ (s : State) (w : WallClock), s.running = true → s.handedRaises = [] → s.wall = some w →
      (w.seconds < 60 → exec .minuteBoundary s = .next s)
        ∧ (60 ≤ w.seconds → w.minute < 16777215 →
          Happens .minuteBoundary s [.wall, .permits, .pairs, .decision, .watches] fun t =>
            t.wall = some ⟨w.minute + 1, w.seconds - 60⟩ ∧ s.SweptFor (w.minute + 1) t
              ∧ t.decision = hoursAt s.settings (w.minute + 1))
        ∧ (60 ≤ w.seconds → 16777215 ≤ w.minute →
          Happens .minuteBoundary s [.wall, .decision, .watches] fun t => t.wall = none ∧ t.decision = .afterHours))
    ∧ ∀ (s : State) (minute : BitVec 24) (second : Byte), s.Ready →
      (59 < second.toNat → OnlyAnswers (.setClock minute second) s ⟨.badValue, []⟩)
        ∧ (second.toNat ≤ 59 →
          Takes (.setClock minute second) s ⟨.ok, []⟩ [.wall, .permits, .pairs, .decision, .watches] fun t =>
            t.wall = some ⟨minute.toNat, second.toNat⟩ ∧ s.SweptFor minute.toNat t
              ∧ t.decision = hoursAt s.settings minute.toNat ∧ t.changes.clock = true)

/-- READ CLOCK (R151, 11), and the windows (R152, R153): READ WINDOW answers the content and whether it holds the present
wall minute; WRITE WINDOW checks number, level and content in that order, replaces the window and makes the hours decision
afresh. That READ WINDOW gives the empty form with bytes of 0 is the model's (log 34). Reference supervision (R157): an
edge in BACKUP begins the proving period of 2 s, a gap in RETURNING or REFERENCE returns to BACKUP, the proving period's
end brings REFERENCE, and each change records the uptime seconds and marks CLOCK; an edge in RETURNING or REFERENCE and a
gap in BACKUP change no record. That a gap is taken on its command, and the proving period measured by the uptime, or, where the
uptime has stopped at its greatest (R147), ended by its command, is the model's choice (log 24), and so is that the
period's end before its instant changes nothing (log 3). While a minute boundary is due, READ CLOCK answers second 59 of the
old minute, and READ WINDOW and WRITE WINDOW read the old minute: the model's reading of R149 (log 4). -/
def Obligations.ClockWindowsAndReference : Prop :=
  (∀ s : State, s.Ready →
      OnlyAnswers .readClock s
        ⟨.ok, num4 (s.uptimeMs / 1000) ++ num2 (s.uptimeMs % 1000) ++ [flag s.wall.isSome]
          ++ (match s.wall with
            | none => List.replicate 9 0xFF
            | some w => num3 w.minute ++ [byte (min w.seconds 59)] ++ num2 (w.minute % 10080) ++ [byte (w.minute % 10080 / 1440)]
              ++ num2 (w.minute % 10080 % 1440))
          ++ [byte s.decision.code, byte s.reference.state.code] ++ num4 s.reference.entered⟩
        ∧ ∀ index : BitVec 16,
          (16 ≤ index.toNat → OnlyAnswers (.readWindow index) s ⟨.badValue, []⟩
              ∧ ∀ f, OnlyAnswers (.writeWindow index f) s ⟨.badValue, []⟩)
            ∧ ∀ n : WindowNo, index.toNat = n.val →
              (s.settings.windows.get n = none → OnlyAnswers (.readWindow index) s ⟨.ok, [0, 0, 0, 0, 0, 0, 0]⟩)
                ∧ (∀ x, s.settings.windows.get n = some x →
                  OnlyAnswers (.readWindow index) s
                    ⟨.ok, [1, byte x.weekdays.toNat] ++ num2 x.start ++ num2 x.stop
                      ++ [flag (match s.wall with | none => false | some w => x.covers w.minute)]⟩)
                ∧ (∀ f : WindowFields,
                  (s.keyOn = false → OnlyAnswers (.writeWindow index f) s ⟨.privilege, []⟩)
                    ∧ (s.keyOn = true → f.form ≠ 0 → ¬ f.IsWindow →
                      OnlyAnswers (.writeWindow index f) s ⟨.badValue, []⟩)
                    ∧ (s.keyOn = true → f.form = 0 ∨ f.IsWindow →
                      Takes (.writeWindow index f) s ⟨.ok, []⟩ [.settings, .decision, .watches] fun t =>
                        t.settings.windows.get n
                            = (if f.form = 0 then none
                              else some ⟨f.weekdays.setWidth 7, f.start.toNat, f.stop.toNat⟩)
                          ∧ (∀ k, k ≠ n → t.settings.windows.get k = s.settings.windows.get k)
                          ∧ t.settings = { s.settings with windows := t.settings.windows }
                          ∧ (t.settings.windows.get n ≠ s.settings.windows.get n →
                            t.decision = (match s.wall with
                              | none => .afterHours
                              | some w => hoursAt t.settings w.minute) ∧ t.changes.clock = true))))
    ∧ ∀ s : State, s.running = true → s.handedRaises = [] →
      (s.reference.state = .backup →
          (Happens .referenceEdge s [.reference] fun t =>
              t.reference = ⟨.returning, s.uptimeMs / 1000, some (s.uptimeMs + 2000)⟩ ∧ t.changes.clock = true)
            ∧ exec .referenceGap s = .next s ∧ exec .provingPeriodEnd s = .next s)
        ∧ (s.reference.state = .returning ∨ s.reference.state = .reference →
          exec .referenceEdge s = .next s
            ∧ Happens .referenceGap s [.reference] fun t =>
              t.reference = ⟨.backup, s.uptimeMs / 1000, none⟩ ∧ t.changes.clock = true)
        ∧ (∀ ms, s.reference.state = .returning → s.reference.provingEnd = some ms →
          (s.uptimeMs < ms → s.uptimeMs / 1000 < 4294967295 → exec .provingPeriodEnd s = .next s)
            ∧ (ms ≤ s.uptimeMs ∨ 4294967295 ≤ s.uptimeMs / 1000 →
              Happens .provingPeriodEnd s [.reference] fun t =>
                t.reference = ⟨.reference, s.uptimeMs / 1000, none⟩ ∧ t.changes.clock = true))

/-! ### Settings (R79, R176 to R181) -/

/-- READ SETTING (R176, R180, 11): an unassigned number is refused BAD_VALUE, else the answer carries the item's value
in the working copy, in four bytes. -/
def Obligations.ReadSettingAnswers : Prop :=
  ∀ (s : State) (index : BitVec 16), s.Ready →
    (UnassignedSetting index.toNat → OnlyAnswers (.readSetting index) s ⟨.badValue, []⟩)
      ∧ (∀ t : StationId, index.toNat = t.val →
        OnlyAnswers (.readSetting index) s
          ⟨.ok, [byte (s.entry t).role.code, byte ((s.entry t).role.number.getD 0), flag (s.entry t).last, 0]⟩)
      ∧ (∀ d : DoorNo,
        (index.toNat = 256 + 8 * d.val →
            OnlyAnswers (.readSetting index) s ⟨.ok, num4 (s.doorSettings d).failMode.code⟩)
          ∧ (index.toNat = 256 + 8 * d.val + 1 →
            OnlyAnswers (.readSetting index) s ⟨.ok, num4 (s.doorSettings d).travelLimit⟩)
          ∧ (index.toNat = 256 + 8 * d.val + 2 →
            OnlyAnswers (.readSetting index) s ⟨.ok, num4 (s.doorSettings d).grantTime⟩)
          ∧ (index.toNat = 256 + 8 * d.val + 3 →
            OnlyAnswers (.readSetting index) s ⟨.ok, num4 (s.doorSettings d).reboltDelay⟩)
          ∧ (index.toNat = 256 + 8 * d.val + 4 →
            OnlyAnswers (.readSetting index) s ⟨.ok, num4 (s.doorSettings d).heldOpenLimit⟩))
      ∧ (∀ z : Room,
        (index.toNat = 512 + 8 * z.val →
            OnlyAnswers (.readSetting index) s ⟨.ok, num4 (s.zoneSettings z).predischarge⟩)
          ∧ (index.toNat = 512 + 8 * z.val + 1 →
            OnlyAnswers (.readSetting index) s ⟨.ok, num4 (s.zoneSettings z).resume⟩)
          ∧ (index.toNat = 512 + 8 * z.val + 2 →
            OnlyAnswers (.readSetting index) s ⟨.ok, num4 (s.zoneSettings z).holdLimit⟩)
          ∧ (index.toNat = 512 + 8 * z.val + 3 →
            OnlyAnswers (.readSetting index) s ⟨.ok, num4 (s.zoneSettings z).confirmWindow⟩)
          ∧ (index.toNat = 512 + 8 * z.val + 4 →
            OnlyAnswers (.readSetting index) s ⟨.ok, num4 (s.zoneSettings z).occupancyLimit⟩)
          ∧ (index.toNat = 512 + 8 * z.val + 5 →
            OnlyAnswers (.readSetting index) s ⟨.ok, num4 (s.zoneSettings z).twoPerson.toNat⟩)
          ∧ (index.toNat = 512 + 8 * z.val + 6 →
            OnlyAnswers (.readSetting index) s ⟨.ok, num4 (s.zoneSettings z).checkIn⟩))
      ∧ (index.toNat = 768 → OnlyAnswers (.readSetting index) s ⟨.ok, num4 s.settings.missLimit⟩)
      ∧ (index.toNat = 769 → OnlyAnswers (.readSetting index) s ⟨.ok, num4 s.settings.rosterHigh⟩)
      ∧ (index.toNat = 770 → OnlyAnswers (.readSetting index) s ⟨.ok, num4 s.settings.pairWindow⟩)
      ∧ (index.toNat = 771 → OnlyAnswers (.readSetting index) s ⟨.ok, num4 s.settings.grace1⟩)
      ∧ (index.toNat = 772 → OnlyAnswers (.readSetting index) s ⟨.ok, num4 s.settings.grace2⟩)

/-- WRITE SETTING of a numbered value (R178, R179): the refusals in their order, BAD_VALUE for an unassigned number,
PRIVILEGE, BUSY while a commit is in flight, BAD_VALUE out of range, IN_USE for an occupancy limit below the count;
taken, the item reads back as written, every other item is unchanged, and a door whose setting changed has its counts
at 0 (R74). -/
def Obligations.WriteSettingChecksAndWrites : Prop :=
  ∀ (s : State) (index : BitVec 16) (value : BitVec 32), s.Ready →
    (UnassignedSetting index.toNat → OnlyAnswers (.writeSetting index value) s ⟨.badValue, []⟩)
      ∧ (¬ UnassignedSetting index.toNat →
        (s.keyOn = false → OnlyAnswers (.writeSetting index value) s ⟨.privilege, []⟩)
          ∧ (s.keyOn = true → s.commit.isSome = true → OnlyAnswers (.writeSetting index value) s ⟨.busy, []⟩))
      ∧ ∀ i : SettingItem, settingItem? index.toNat = some i → (∀ t, i ≠ .station t) → s.keyOn = true →
        s.commit = none →
        (¬ i.Takes value.toNat → OnlyAnswers (.writeSetting index value) s ⟨.badValue, []⟩)
          ∧ (∀ z, i = .zone z .occupancyLimit → i.Takes value.toNat → value.toNat < (s.list z).length →
            OnlyAnswers (.writeSetting index value) s ⟨.refused, [0x01]⟩)
          ∧ (i.Takes value.toNat → (∀ z, i = .zone z .occupancyLimit → (s.list z).length ≤ value.toNat) →
            Takes (.writeSetting index value) s ⟨.ok, []⟩ [.settings, .doors] fun t =>
              t.settings.value i = num4 value.toNat
                ∧ (∀ j, j ≠ i → t.settings.value j = s.settings.value j)
                ∧ t.settings.windows = s.settings.windows ∧ t.settings.stations = s.settings.stations
                ∧ (∀ d k, i = .door d k →
                  ((s.doorSettings d).item k ≠ value.toNat →
                      t.door d = { s.door d with passages := 0, forced := 0, held := 0 })
                    ∧ ((s.doorSettings d).item k = value.toNat → t.door d = s.door d))
                ∧ (∀ d, (∀ k, i ≠ .door d k) → t.door d = s.door d))

/-- WRITE SETTING of a station entry (R79, R178, R179): BAD_VALUE for a value that is no station entry, and the entry it
carries otherwise; refused IN_USE where another address serves the door or zone, or where the write takes out of service an
address, by a change of role or a move of the last flag, that serves a door neither SECURED nor in FAULT STATION_LOST, or a
zone that is not NORMAL or ISOLATED. The entry held already changes nothing. Taken, the entry is written, and a last flag set
is cleared on the other slots of the loop; the record of every address that leaves its service stands as at power-on with its
handshake ended, its door is in FAULT STATION_LOST, and the cause of an alarm STATION_LOST that names it ends; no other
station, door or setting changes, and no zone but one in HELD. -/
def Obligations.StationRoleChange : Prop :=
  (∀ v : BitVec 32, (MalformedEntry v ↔ stationEntry? v = none)
      ∧ ∀ e, stationEntry? v = some e ↔ e.value = num4 v.toNat)
    ∧ ∀ (s : State) (index : BitVec 16) (value : BitVec 32) (st : StationId), s.Ready → index.toNat = st.val →
      s.keyOn = true → s.commit = none →
      (MalformedEntry value → OnlyAnswers (.writeSetting index value) s ⟨.badValue, []⟩)
        ∧ ∀ e, stationEntry? value = some e →
          (s.ServedElsewhere st e.role → OnlyAnswers (.writeSetting index value) s ⟨.refused, [0x01]⟩)
            ∧ (∀ u d, s.LeavesService st e u → (s.entry u).role = .door d → (s.door d).state ≠ .secured →
              (s.door d).state ≠ .fault .stationLost → OnlyAnswers (.writeSetting index value) s ⟨.refused, [0x01]⟩)
            ∧ (∀ u z, s.LeavesService st e u → (s.entry u).role = .zone z → (s.zone z).state ≠ .normal →
              (s.zone z).state ≠ .isolated → OnlyAnswers (.writeSetting index value) s ⟨.refused, [0x01]⟩)
            ∧ (¬ s.ServedElsewhere st e.role → e = s.entry st → OnlyAnswers (.writeSetting index value) s ⟨.ok, []⟩)
            ∧ (¬ s.ServedElsewhere st e.role → e ≠ s.entry st →
              (∀ u d, s.LeavesService st e u → (s.entry u).role = .door d →
                ((s.door d).state = .secured ∨ (s.door d).state = .fault .stationLost) ∧ (s.door d).grant = none) →
              (∀ u z, s.LeavesService st e u → (s.entry u).role = .zone z →
                (s.zone z).state = .normal ∨ (s.zone z).state = .isolated) →
              Takes (.writeSetting index value) s ⟨.ok, []⟩
                [.settings, .stations, .notes, .doors, .zones, .alarms] fun t =>
                (∀ u, t.entry u = s.entryAfter st e u)
                  ∧ t.settings = { s.settings with stations := t.settings.stations }
                  ∧ (∀ u, s.LeavesService st e u →
                    t.station u = ⟨.unseen, 0, none, none, .idle⟩ ∧ t.note u = ⟨false, false⟩)
                  ∧ (∀ u, ¬ s.LeavesService st e u → t.station u = s.station u ∧ t.note u = s.note u)
                  ∧ (∀ u d, s.LeavesService st e u → (s.entry u).role = .door d →
                    t.door d = if (s.door d).state = .secured then (s.door d).atRest (.fault .stationLost)
                      else s.door d)
                  ∧ (∀ d, (∀ u, s.LeavesService st e u → (s.entry u).role ≠ .door d) → t.door d = s.door d)
                  ∧ (∀ z, (s.zone z).state ≠ .held → t.zone z = s.zone z)
                  ∧ ∀ u i a, s.LeavesService st e u → t.alarm i = some a → a.key.kind = .stationLost →
                    a.key.station = some u → a.cause ≠ some true)

/-- COMMIT SETTINGS and its completion (R181): PRIVILEGE, then BUSY; begun, a snapshot of the whole working copy is
taken and COMMIT_BUSY is set. A completion that succeeds puts the snapshot into the image and clears COMMIT_FAILED and
SETTINGS_DEFAULTED; one that fails leaves the image invalid and sets COMMIT_FAILED. Each marks STATUS. -/
def Obligations.CommitAndCompletion : Prop :=
  (∀ s : State, s.Ready →
      (s.keyOn = false → OnlyAnswers .commitSettings s ⟨.privilege, []⟩)
        ∧ (s.keyOn = true → s.commit.isSome = true → OnlyAnswers .commitSettings s ⟨.busy, []⟩)
        ∧ (s.keyOn = true → s.commit = none →
          Takes .commitSettings s ⟨.ok, []⟩ [.commit] fun t =>
            t.commit = some s.settings ∧ t.commitBusy = true ∧ t.changes.status = true))
    ∧ ∀ (s : State) (c : Settings), s.running = true → s.handedRaises = [] → s.commit = some c →
      (Happens (.commitCompletion true) s [.commit, .image, .commitFailed, .settingsDefaulted] fun t =>
          t.image = some c ∧ t.commit = none ∧ t.commitBusy = false ∧ t.commitFailed = false
            ∧ t.settingsDefaulted = false ∧ t.changes.status = true)
        ∧ (Happens (.commitCompletion false) s [.commit, .image, .commitFailed] fun t =>
          t.image = none ∧ t.commit = none ∧ t.commitBusy = false ∧ t.commitFailed = true ∧ t.changes.status = true)

/-! ### Field loops (R78 to R96) -/

/-- A poll (R80, R81, R89, R90): while the supply is NORMAL the loop polls the slot that is due with the outputs that
stand, HOLD for a presentation waiting or handed, and ACK with the decision for a decided one, which it remembers to have
sent (R90), and goes on to the next slot, from the last slot of the cycle to slot 0. In LOW it sends nothing. Which slot is due when the last flag
has moved in mid-cycle is the model's choice (log 42). -/
def Obligations.PollSendsOutputs : Prop :=
  ∀ (s : State) (l : LoopNo) (k : Fin 16) (h : PollHandshake), s.running = true →
    (s.inLow = true → exec (.poll l) s = .next s)
      ∧ (s.inLow = false →
        k = (if (s.loops.get l).nextSlot ≤ cycleEnd s.settings.stations l then (s.loops.get l).nextSlot else 0) →
        (match (s.station (address l k)).handshake with
          | .idle => h = .none
          | .waiting _ | .handed _ => h = .hold
          | .answering d m => h = .ack m d) →
        ∃ t, exec (.poll l) s = .next t ∧ OnlyChanges [.loops, .notes] s t
          ∧ (t.loops.get l).lastPoll = some ⟨k, s.stationOutput (address l k), h⟩
          ∧ (t.loops.get l).nextSlot = (if k < cycleEnd s.settings.stations l then k + 1 else 0)
          ∧ (∀ j, j ≠ l → t.loops.get j = s.loops.get j)
          ∧ (t.note (address l k) = if h = .none ∨ h = .hold then s.note (address l k)
            else { s.note (address l k) with ackSent := true })
          ∧ ∀ v, v ≠ address l k → t.note v = s.note v)

/-- A missed answer (R83, R84, R91, R92): missed rises by one, to at most 8, the candidate becomes absent, and a pair of
answers without a presentation is broken; at the miss limit an UNSEEN or PRESENT station becomes LOST, keeps its inputs,
drops a presentation WAITING or HANDED and keeps one decided, STATION_LOST is raised, and the door it serves is in FAULT
STATION_LOST, its grant disposed of by the state left (R59). An answer with an unlisted code is a missed answer (R82). A
slot outside the supervised cycle is not polled (R80), and one without a role has no class (R82): that an answer or a miss
named there changes nothing is the model's choice (log 9). -/
def Obligations.MissedAnswerSupervised : Prop :=
  ∀ (s : State) (st : StationId) (c : MissCause), s.Live →
    (s.supervised st = false → exec (.missedAnswer st c) s = .next s ∧ ∀ a, exec (.goodAnswer st a) s = .next s)
      ∧ (s.supervised st = true →
        (∀ a, codeListed (s.entry st).role a.code = false →
            exec (.goodAnswer st a) s = exec (.missedAnswer st .unlistedCode) s)
          ∧ ((s.station st).presence = .lost ∨ min ((s.station st).missed + 1) 8 < s.settings.missLimit →
            Happens (.missedAnswer st c) s [.stations, .notes] fun t =>
              t.station st
                  = { s.station st with missed := min ((s.station st).missed + 1) 8, candidate := none }
                ∧ (∀ u, u ≠ st → t.station u = s.station u)
                ∧ t.note st = { s.note st with blankSeen := false } ∧ ∀ u, u ≠ st → t.note u = s.note u)
          ∧ ((s.station st).presence ≠ .lost → s.settings.missLimit ≤ min ((s.station st).missed + 1) 8 →
            ∃ t, exec (.missedAnswer st c) s = .next t
              ∧ t.station st = { s.station st with
                presence := .lost
                missed := min ((s.station st).missed + 1) 8
                candidate := none
                handshake := match (s.station st).handshake with
                  | .waiting _ | .handed _ => .idle
                  | .idle => .idle
                  | .answering x m => .answering x m }
              ∧ (∀ u, u ≠ st → t.station u = s.station u)
              ∧ (∀ d, (s.entry st).role = .door d → (s.door d).grant = none →
                (t.door d).state = .fault .stationLost ∧ (t.door d).grant = none
                  ∧ (∀ e, e ≠ d → t.door e = s.door e)
                  ∧ s.RaisesOrLoses ⟨.stationLost, some (roomOf d), some d, none, some st⟩ t
                  ∧ OnlyChanges [.stations, .notes, .doors, .watches, .alarms, .overflow, .lostCount, .changes] s t)
              ∧ (∀ d g, (s.entry st).role = .door d → (s.door d).grant = some g →
                ((s.door d).state = .unbolting ∨ (s.door d).state = .released
                    ∨ (∃ f, (s.door d).state = .fault f ∧ f ≠ .stationLost) →
                  (t.door d).state = .fault .stationLost ∧ (t.door d).grant = none
                    ∧ (g.Retires → s.RetiresAdmitted g t))
                  ∧ ((s.door d).state = .opened ∨ (s.door d).state = .closedWait →
                    (t.door d).state = .fault .stationLost ∧ (t.door d).grant = none
                      ∧ (g.kind.isEntry = true →
                        (t.door d).passages = (s.door d).passages + 1 ∧ s.Passed g.kind d g.slots t)
                      ∧ (g.kind.isEntry = false → (t.door d).passages = (s.door d).passages ∧ t.lists = s.lists)))
              ∧ (∀ z, (s.entry st).role = .zone z →
                s.RaisesOrLoses ⟨.stationLost, some z, none, none, some st⟩ t
                  ∧ OnlyChanges [.stations, .notes, .zones, .watches, .alarms, .overflow, .lostCount, .changes] s t)
              ∧ ((s.entry st).role = .muster →
                s.RaisesOrLoses ⟨.stationLost, none, none, none, some st⟩ t
                  ∧ OnlyChanges [.stations, .notes, .watches, .alarms, .overflow, .lostCount, .changes] s t)))

/-- A good answer. The double look (R83, R86): it clears missed; a code not equal to the candidate validates nothing
and becomes the candidate; a code equal to it is validated, becomes the inputs, and makes the station PRESENT. The
presentation handshake (R88 to R91), at a good answer of a PRESENT station that repeats its inputs: a presentation at
IDLE or WAITING is handed if the admission unit holds none of the loop, and waits otherwise. In HANDED a repeat
changes nothing, and one with the other mark withdraws the handed one and waits. In WAITING and HANDED the second
answer in a row without a presentation withdraws it. ANSWERING ends at the first good answer after a poll that carried
its ACK, and a presentation in that answer is taken as at IDLE. A presentation of a ZONE station, or of a station that
is not PRESENT, is not taken. -/
def Obligations.GoodAnswersValidateAndHandshake : Prop :=
  (∀ (s : State) (st : StationId) (code : Byte), s.Live → s.supervised st = true →
    codeListed (s.entry st).role code = true → (s.station st).handshake = .idle →
    ((s.station st).candidate ≠ some code →
        Happens (.goodAnswer st ⟨code, none⟩) s [.stations] fun t =>
          t.station st = { s.station st with missed := 0, candidate := some code }
            ∧ ∀ u, u ≠ st → t.station u = s.station u)
      ∧ ((s.station st).candidate = some code →
        ∃ t, exec (.goodAnswer st ⟨code, none⟩) s = .next t
          ∧ t.station st = { s.station st with missed := 0, presence := .present, inputs := some code }
          ∧ (∀ u, u ≠ st → t.station u = s.station u) ∧ t.settings = s.settings ∧ t.uptimeMs = s.uptimeMs))
    ∧ (∀ (s : State) (st : StationId) (code : Byte) (p : Option Presentation), s.Repeats st code →
      (∃ d, (s.entry st).role = .door d) ∨ (s.entry st).role = .muster →
      Happens (.goodAnswer st ⟨code, p⟩) s [.stations, .notes] fun t =>
        (∃ h, t.station st = { s.station st with missed := 0, candidate := some code, handshake := h })
          ∧ (∀ v, v ≠ st → t.station v = s.station v) ∧ (∀ v, v ≠ st → t.note v = s.note v)
          ∧ ((s.station st).handshake = .idle → p = none →
            (t.station st).handshake = .idle ∧ t.note st = s.note st)
          ∧ (∀ q, p = some q →
            (s.station st).handshake = .idle ∨ (∃ q0, (s.station st).handshake = .waiting q0)
              ∨ (∃ d m, (s.station st).handshake = .answering d m ∧ (s.note st).ackSent = true) →
            t.note st = ⟨false, false⟩
              ∧ ((∀ v q1, loopOf v = loopOf st → (s.station v).handshake ≠ .handed q1) →
                (t.station st).handshake = .handed q)
              ∧ ((∃ v q1, loopOf v = loopOf st ∧ (s.station v).handshake = .handed q1) →
                (t.station st).handshake = .waiting q))
          ∧ (∀ q0 q, (s.station st).handshake = .handed q0 → p = some q →
            (q.mark = q0.mark → (t.station st).handshake = .handed q0 ∧ t.note st = { s.note st with blankSeen := false })
              ∧ (q.mark ≠ q0.mark → (t.station st).handshake = .waiting q ∧ t.note st = ⟨false, false⟩))
          ∧ ((∃ q0, (s.station st).handshake = .waiting q0 ∨ (s.station st).handshake = .handed q0) → p = none →
            ((s.note st).blankSeen = false →
                (t.station st).handshake = (s.station st).handshake ∧ t.note st = { s.note st with blankSeen := true })
              ∧ ((s.note st).blankSeen = true → (t.station st).handshake = .idle ∧ t.note st = ⟨false, false⟩))
          ∧ (∀ d m, (s.station st).handshake = .answering d m →
            ((s.note st).ackSent = false → (t.station st).handshake = .answering d m ∧ t.note st = s.note st)
              ∧ ((s.note st).ackSent = true → p = none →
                (t.station st).handshake = .idle ∧ t.note st = ⟨false, false⟩)))
    ∧ (∀ (s : State) (st : StationId) (z : Room) (code : Byte) (q : Presentation), (s.entry st).role = .zone z →
      exec (.goodAnswer st ⟨code, some q⟩) s = exec (.goodAnswer st ⟨code, none⟩) s)
    ∧ ∀ (s : State) (st : StationId) (code : Byte) (q : Presentation), (s.station st).presence ≠ .present →
      (s.station st).candidate ≠ some code →
      exec (.goodAnswer st ⟨code, some q⟩) s = exec (.goodAnswer st ⟨code, none⟩) s

/-! ### Start-up and supply (R177, R182 to R185) -/

/-- The hold and the image load (R177, R182, R185): the reset input and a supply below the retention level hold the
part with its lines negated, and lose a commit in flight together with the image's validity. Each leaves the other condition
as it stood: absent where the part was running or loading, but that a reset taken in LOW waits for the supply to rise too
(log 14). Each condition that ends leaves the other, and when both have ended the image is loaded; a part held takes no key.
That the two conditions of a hold end apart, each by its POWER_ON, and that no key is taken meanwhile, are the model's
choices (log 13, 14). -/
def Obligations.HoldAndImageLoad : Prop :=
  ∀ s : State,
    (∃ t, exec .resetInput s = .next t
        ∧ ((∀ r v, s.power = .held r v → t.power = .held true v)
          ∧ (s.power = .loading → t.power = .held true false)
          ∧ (s.power = .running → t.power = .held true s.inLow))
        ∧ t.lines = ⟨false, false, false⟩
        ∧ t.image = (if s.commit.isSome then none else s.image) ∧ t.pending = s.pending)
      ∧ (∃ t, exec .supplyBelowRetention s = .next t
        ∧ ((∀ r v, s.power = .held r v → t.power = .held r true)
          ∧ (s.power = .loading ∨ s.power = .running → t.power = .held false true))
        ∧ t.lines = ⟨false, false, false⟩
        ∧ t.image = (if s.commit.isSome then none else s.image) ∧ t.pending = s.pending)
      ∧ (∀ r v, s.power = .held r v →
        exec (.powerOn .resetRelease) s = .next { s with power := if v then .held false true else .loading }
          ∧ exec (.powerOn .supplyRise) s = .next { s with power := if r then .held true false else .loading }
          ∧ ∀ on, exec (.keyValidated on) s = .next s)
      ∧ (s.power = .loading → ∀ c, s.image = some c → c.inRange = true →
        exec .imageLoad s = .next { State.powerOn c false (some c) with pending := s.pending })
      ∧ (s.power = .loading → (∀ c, s.image = some c → c.inRange = false) →
        exec .imageLoad s = .next { State.powerOn Settings.factory true s.image with pending := s.pending })
      ∧ (s.power = .running → ∀ on, exec (.keyValidated on) s = .next { s with keyOn := on })

/-- The power-on values by block (R177 and its table: R19, R49, R77, R96, R123, R146, R159, R175, R181, R182), which a
reset part stands at too. That the part at reset has a never-written image, so that the factory defaults are loaded, is
the model's choice (log 1). -/
def Obligations.PowerOnValues : Prop :=
  (∀ (c : Settings) (b : Bool) (image : Option Settings), (State.powerOn c b image).AtPowerOn c b)
    ∧ State.reset.AtPowerOn Settings.factory true ∧ State.reset.running = true ∧ State.reset.pending = []

/-- Entry to LOW (R183, R96): the loops stop, a presentation WAITING or HANDED is dropped, one decided stays, and the
direct lines hold the values they had in that event. The supply restart (R184 and the rules of each block): every
strongroom UNCERTAIN and every pending pair dropped (R49), the stations of the cycle UNSEEN (R96), the change set full,
the default mask, SUPPLY_RESTARTED set (R175), a countdown starts again in full and a release turns its fire outputs
off with a new confirm window (R122). The doors (R76, R44): UNBOLTING or RELEASED with a grant, or without one outside
HOLD_OPEN, goes to BOLTING, an entry grant retiring the ADMITTED records it names; without one in HOLD_OPEN the state is
kept; where no door is in either state every door is kept, its running timer starting again in full. That the lines held
are those of before the event (log 15), and that an OPEN door's held-open deadline starts again where it is present at the
restart, which R76 reads at entry to LOW (log 18), is the model's reading, and so is that a grant which lapses at the
restart in HOLD_OPEN sends its door to BOLTING, as R76 says, and not to RELEASED, as R54 says of a lapse there (log 46). -/
def Obligations.SupplyLowAndRestart : Prop :=
  (∀ s : State, s.Live →
      Happens .supplyLow s [.stations, .notes, .loops, .supply] fun t =>
        t.inLow = true ∧ t.lines = s.lines
          ∧ (∀ st, t.station st = { s.station st with
              handshake := match (s.station st).handshake with
                | .answering d m => .answering d m
                | .idle | .waiting _ | .handed _ => .idle })
          ∧ (∀ l, exec (.poll l) t = .next t) ∧ ∀ l, t.handedStation l = none)
    ∧ ∀ s : State, s.running = true → s.inLow = true →
      ∃ t, exec .supplyRestart s = .next t
        ∧ OnlyChanges [.supply, .uncertain, .pairs, .stations, .loops, .doors, .zones, .permits, .records, .watches,
          .lists, .alarms, .overflow, .lostCount, .changes, .attentionMask, .supplyRestarted] s t
        ∧ t.inLow = false ∧ (∀ r, t.uncertain.get r = true) ∧ (∀ r, t.pair r = none)
        ∧ (∀ st, inCycle s.settings.stations st = true →
          t.station st = { s.station st with presence := .unseen, missed := 0, candidate := none })
        ∧ (∀ st, inCycle s.settings.stations st = false → t.station st = s.station st)
        ∧ (∀ i, t.changes.has i = true) ∧ t.attentionMask = 0b00000011 ∧ t.supplyRestarted = true
        ∧ (∀ z, (s.zone z).state = .predischarge →
          t.zone z = { s.zone z with countdown := some (s.uptimeMs + 1000 * (s.zoneSettings z).predischarge) })
        ∧ (∀ z, (s.zone z).state = .releasing →
          t.zone z = { s.zone z with
            mainFire := false
            reserveFire := false
            pulseEnd := none
            confirmEnd := some (s.uptimeMs + 1000 * (s.zoneSettings z).confirmWindow) })
        ∧ (∀ z, (s.zone z).state ≠ .predischarge → (s.zone z).state ≠ .releasing → (s.zone z).state ≠ .held →
          t.zone z = s.zone z)
        ∧ (∀ d, (s.door d).state = .unbolting ∨ (s.door d).state = .released →
          (∀ g, (s.door d).grant = some g → g.Retires → s.RetiresAdmitted g t)
            ∧ ((s.door d).grant.isSome = true ∨ (s.door d).effMode ≠ .holdOpen → (s.door d).pendingExit = none →
              (s.door d).bolt ≠ some .thrown →
              (s.door d).effMode ≠ .holdOpen
                ∨ ((s.door (partner d)).state ≠ .unbolting ∧ (s.door (partner d)).state ≠ .released) →
              t.door d = s.boltingFrom d (s.door d))
            ∧ ((s.door d).grant = none → (s.door d).effMode = .holdOpen → (s.door d).pendingExit = none →
              (t.door d).state = (s.door d).state))
        ∧ ((∀ e, (s.door e).state ≠ .unbolting ∧ (s.door e).state ≠ .released) →
          ∀ d, t.door d = { s.door d with
            stepDeadline := match (s.door d).state with
              | .opened => (s.door d).stepDeadline.map fun _ => s.uptimeMs + 1000 * (s.doorSettings d).heldOpenLimit
              | .closedWait => some (s.uptimeMs + 1000 * (s.doorSettings d).reboltDelay)
              | .bolting => some (s.uptimeMs + 1000 * (s.doorSettings d).travelLimit)
              | .fault _ =>
                if (s.door d).grant.isSome then some (s.uptimeMs + 1000 * (s.doorSettings d).travelLimit)
                else (s.door d).stepDeadline
              | .secured | .unbolting | .released => (s.door d).stepDeadline })

/-! ### What every step keeps -/

/-- Every step keeps the effective mode of every door at what its zone's state and its base mode make it (R65). -/
def Obligations.ModesStayComputed : Prop :=
  ∀ s t : State, ModesComputed s → step s = .next t → ModesComputed t

/-- Every step keeps every zone record sound: hold reasons in HELD only and never empty there, a countdown in
PREDISCHARGE only, fire outputs in RELEASING only, a pulse end while one is on (R97, R107). -/
def Obligations.ZonesStaySound : Prop :=
  ∀ s t : State, ZonesSound s → step s = .next t → ZonesSound t

/-- Every step keeps the hold reasons of a zone in HELD at the conditions that stand (R106, R109). -/
def Obligations.HoldReasonsStayCurrent : Prop :=
  ∀ s t : State, HoldReasonsCurrent s → step s = .next t → HoldReasonsCurrent t

/-- Every step keeps the permits, the records, the lists and the pending pairs naming each other as R2, R4, R21 and R35
say. -/
def Obligations.RosterStaysSound : Prop :=
  ∀ s t : State, RosterSound s → step s = .next t → RosterSound t

/-- Gas is released only at the end of a countdown, and only where every condition of R107 is clear: a step that takes
a zone into RELEASING is its COUNTDOWN_END, from PREDISCHARGE, with the strongroom vacant and certain, no abort, both
doors closed and its station PRESENT. -/
def Obligations.ReleaseOnlyWhenSafe : Prop :=
  ∀ (s t : State) (z : Room), step s = .next t → (s.zone z).state ≠ .releasing → (t.zone z).state = .releasing →
    (∃ rest, s.pending = .countdownEnd z :: rest) ∧ (s.zone z).state = .predischarge ∧ s.ReleaseSafe z

/-- Every change of a record is in the change set after the step that made it, by the records of R169's table: permits;
roster slots with their watches; alarms; stations with their role, last flag and place in the poll cycle (R179); zones with
their settings, the UNCERTAIN flag, the CHIME request and the sounder (R97, R142); doors with their settings, the buzzer and,
at an outer door, the pending pair; the clock; and the first nine items of the status record (R173), CLOCK_INVALID among
them (R149). Left out are the contact and the bolt reading of a door, which the model does not count to its record,
countsDue of a zone, which is the model's own field, and the counting of the clock (log 6, the model's reading). That a
deadline is compared by its instant in milliseconds is the model's choice (log 45). What a READ
answer carries from another block's record is no field of its own record (R93, R97): a zone's count and contact, and the
output field of a station. -/
def Obligations.EveryChangeIsMarked : Prop :=
  ∀ s t : State, step s = .next t →
    (∀ p, t.permit p ≠ s.permit p → t.changes.has (.permit p) = true)
      ∧ (∀ o, t.occupant o ≠ s.occupant o → t.changes.has (.roster o) = true)
      ∧ (∀ a, t.alarm a ≠ s.alarm a → t.changes.has (.alarm a) = true)
      ∧ (∀ st, t.station st ≠ s.station st ∨ t.entry st ≠ s.entry st
          ∨ inCycle t.settings.stations st ≠ inCycle s.settings.stations st →
        t.changes.has (.station st) = true)
      ∧ (∀ z, t.zone z ≠ { s.zone z with countsDue := (t.zone z).countsDue } ∨ t.zoneSettings z ≠ s.zoneSettings z
          ∨ t.uncertain.get z ≠ s.uncertain.get z ∨ t.chimeRequest z ≠ s.chimeRequest z ∨ t.sounder z ≠ s.sounder z →
        t.changes.has (.zone z) = true)
      ∧ (∀ d, t.door d ≠ { s.door d with contact := (t.door d).contact, bolt := (t.door d).bolt }
          ∨ t.doorSettings d ≠ s.doorSettings d ∨ t.buzzer d ≠ s.buzzer d
          ∨ (isOuter d = true ∧ t.pair (roomOf d) ≠ s.pair (roomOf d)) →
        t.changes.has (.door d) = true)
      ∧ (t.decision ≠ s.decision ∨ t.wall.isSome ≠ s.wall.isSome ∨ t.reference.state ≠ s.reference.state
          ∨ t.reference.entered ≠ s.reference.entered ∨ t.settings.windows ≠ s.settings.windows →
        t.changes.has .clock = true)
      ∧ (t.rosterHigh ≠ s.rosterHigh ∨ t.overflow ≠ s.overflow ∨ t.lostCount ≠ s.lostCount
          ∨ t.commit.isSome ≠ s.commit.isSome ∨ t.commitFailed ≠ s.commitFailed
          ∨ t.supplyRestarted ≠ s.supplyRestarted ∨ t.settingsDefaulted ≠ s.settingsDefaulted
          ∨ t.wall.isSome ≠ s.wall.isSome
          ∨ (∃ l, t.lostStations l ≠ s.lostStations l) →
        t.changes.has .status = true)

/-- The machine right after reset, which is the model's own reset state (log 1), has every property that the steps keep:
modes (R65), zones (R97), hold reasons (R106), and permits, records, lists and pairs (R2, R4, R21). That no raise waits
between events, which every step keeps too, is the model's way of taking raises (log 8). -/
def Obligations.ResetKeepsAll : Prop :=
  ModesComputed State.reset ∧ ZonesSound State.reset ∧ HoldReasonsCurrent State.reset ∧ RosterSound State.reset
    ∧ RaisesTaken State.reset
    ∧ ∀ s t : State, RaisesTaken s → step s = .next t → RaisesTaken t
end

