-- ==== Sys2Proof/Laws/Table.lean ====
section
/-! SUPPORT. The laws of `Table`: what `get` reads after each operation, and extensionality. -/

namespace Sys2Proof.Table

variable {n : Nat} {α β γ : Type}

theorem ext_toList {t u : Table n α} (h : t.toList = u.toList) : t = u := by
  cases t; cases u; cases h; rfl

theorem ext_get {t u : Table n α} (h : ∀ i, t.get i = u.get i) : t = u := by
  apply ext_toList
  apply List.ext_getElem
  · rw [t.size_eq, u.size_eq]
  · intro i h1 h2
    have hi : i < n := t.size_eq ▸ h1
    exact h ⟨i, hi⟩

@[simp] theorem get_set_self (t : Table n α) (i : Fin n) (a : α) : (t.set i a).get i = a := by
  simp [get, set]

theorem get_set (t : Table n α) (i j : Fin n) (a : α) : (t.set i a).get j = if i = j then a else t.get j := by
  by_cases h : i = j
  · subst h
    simp
  · have hv : i.val ≠ j.val := fun e => h (Fin.ext e)
    simp [get, set, h, hv]

theorem get_set_ne (t : Table n α) {i j : Fin n} (a : α) (h : i ≠ j) : (t.set i a).get j = t.get j := by
  simp [get_set, h]

@[simp] theorem set_get (t : Table n α) (i : Fin n) : t.set i (t.get i) = t := by
  apply ext_get
  intro j
  by_cases h : i = j
  · subst h
    simp
  · simp [get_set, h]

@[simp] theorem set_set (t : Table n α) (i : Fin n) (a b : α) : (t.set i a).set i b = t.set i b := by
  apply ext_get
  intro j
  by_cases h : i = j <;> simp [get_set, h]

@[simp] theorem get_map (f : α → β) (t : Table n α) (i : Fin n) : (t.map f).get i = f (t.get i) := by
  simp [get, map]

@[simp] theorem get_replicate (a : α) (i : Fin n) : (replicate n a).get i = a := by
  simp [get, replicate]

@[simp] theorem get_ofFn (f : Fin n → α) (i : Fin n) : (ofFn f).get i = f i := by
  simp [get, ofFn]

@[simp] theorem get_zipWith (f : α → β → γ) (t : Table n α) (u : Table n β) (i : Fin n) :
    (zipWith f t u).get i = f (t.get i) (u.get i) := by
  simp [get, zipWith]

theorem map_set (f : α → β) (t : Table n α) (i : Fin n) (a : α) : (t.set i a).map f = (t.map f).set i (f a) := by
  apply ext_get
  intro j
  by_cases h : i = j <;> simp [get_set, h]

theorem map_map (g : β → γ) (f : α → β) (t : Table n α) : (t.map f).map g = t.map fun x => g (f x) := by
  apply ext_get
  intro j
  simp

theorem map_id' (f : α → α) (t : Table n α) (h : ∀ i, f (t.get i) = t.get i) : t.map f = t := by
  apply ext_get
  intro i
  simp [h]

theorem mem_toList {t : Table n α} {a : α} : a ∈ t.toList ↔ ∃ i, t.get i = a := by
  constructor
  · intro h
    obtain ⟨k, hk, e⟩ := List.getElem_of_mem h
    exact ⟨⟨k, t.size_eq ▸ hk⟩, e⟩
  · rintro ⟨i, rfl⟩
    exact List.getElem_mem _

theorem any_iff {t : Table n α} {p : α → Bool} : t.any p = true ↔ ∃ i, p (t.get i) = true := by
  simp only [any, List.any_eq_true]
  constructor
  · rintro ⟨a, ha, hp⟩
    obtain ⟨i, rfl⟩ := mem_toList.mp ha
    exact ⟨i, hp⟩
  · rintro ⟨i, hp⟩
    exact ⟨t.get i, mem_toList.mpr ⟨i, rfl⟩, hp⟩

theorem any_false_iff {t : Table n α} {p : α → Bool} : t.any p = false ↔ ∀ i, p (t.get i) = false := by
  rw [← Bool.not_eq_true, any_iff]
  simp

/-- A slot that `findIx?` finds passes the test. -/
theorem findIx?_some {t : Table n α} {p : α → Bool} {i : Fin n} (h : t.findIx? p = some i) : p (t.get i) = true := by
  simp only [findIx?, Option.map_eq_some_iff] at h
  obtain ⟨j, hj, rfl⟩ := h
  have := (List.findFinIdx?_eq_some_iff.mp hj).1
  simpa [get] using this

/-- If `findIx?` finds nothing, no record passes the test. -/
theorem findIx?_none {t : Table n α} {p : α → Bool} (h : t.findIx? p = none) (i : Fin n) : p (t.get i) = false := by
  simp only [findIx?, Option.map_eq_none_iff, List.findFinIdx?_eq_none_iff] at h
  have := h (t.get i) (List.getElem_mem _)
  simpa using this

/-- The slot that `findIx?` finds is the lowest. -/
theorem findIx?_lowest {t : Table n α} {p : α → Bool} {i j : Fin n} (h : t.findIx? p = some i) (hj : j < i) :
    p (t.get j) = false := by
  simp only [findIx?, Option.map_eq_some_iff] at h
  obtain ⟨k, hk, rfl⟩ := h
  have := (List.findFinIdx?_eq_some_iff.mp hk).2
  have hlt : j.val < k.val := hj
  have h2 := this ⟨j.val, Nat.lt_trans hlt k.isLt⟩ hlt
  simpa [get] using h2

end Sys2Proof.Table
end

