-- ==== Sys2Proof/Laws/Conditions.lean ====
section
/-! SUPPORT. The computed conditions of the roster, the watches and the permits, each against the words the statements say it in:
unescorted (R143), sounding (R142) and not expired (R16). -/

namespace Sys2Proof.Machine

/-- The class read at a slot is the class of the permit its record names. -/
theorem slotClass_eq_some (s : State) (o : Slot) (k : PermitClass) :
    s.slotClass o = some k ↔ ∃ x m, s.occupant o = some x ∧ s.permit x.permit = some m ∧ m.cls = k := by
  unfold State.slotClass
  constructor
  · intro h
    obtain ⟨x, hx, hk⟩ := Option.bind_eq_some_iff.mp h
    obtain ⟨m, hm, e⟩ := Option.map_eq_some_iff.mp hk
    exact ⟨x, m, hx, hm, e⟩
  · rintro ⟨x, m, hx, hm, rfl⟩
    simp [hx, hm]

/-- The list holds a record of the class, as the model reads it. -/
theorem hasClass_iff (s : State) (r : Room) (k : PermitClass) :
    s.HasClass r k ↔ ∃ o, o ∈ s.list r ∧ s.slotClass o = some k := by
  simp only [State.HasClass, slotClass_eq_some]
  constructor
  · rintro ⟨o, x, m, ho, h⟩
    exact ⟨o, ho, x, m, h⟩
  · rintro ⟨o, ho, x, m, h⟩
    exact ⟨o, x, m, ho, h⟩

/-- The unescorted condition is the manual's (R143). -/
theorem unescorted_iff (s : State) (r : Room) : s.unescorted r = true ↔ s.Unescorted r := by
  simp only [State.unescorted, State.escorted, State.Unescorted, hasClass_iff, Bool.and_eq_true, Bool.not_eq_true',
    List.any_eq_true, List.any_eq_false, decide_eq_true_eq, Bool.or_eq_true, not_or, not_exists, not_and]
  exact and_congr_right fun _ => ⟨fun h => ⟨fun o ho => (h o ho).1, fun o ho => (h o ho).2⟩,
    fun h o ho => ⟨h.1 o ho, h.2 o ho⟩⟩

/-- An alarm record with a property, by the table's search. -/
theorem alarms_any (s : State) (p : Alarm → Bool) :
    (s.alarms.any fun x => x.any p) = true ↔ ∃ i a, s.alarm i = some a ∧ p a = true := by
  simp only [Table.any_iff, Option.any_eq_true]
  rfl

/-- A record names the slot of a lone worker. -/
theorem namesLoneWorker_iff (o : Slot) (a : Alarm) : a.namesLoneWorker o = true ↔ a.NamesLoneWorker o := by
  simp [Alarm.namesLoneWorker, Alarm.NamesLoneWorker]

/-- A watch sounds as the manual says (R142). -/
theorem sounding_iff (s : State) (o : Slot) : s.sounding o = true ↔ s.Sounds o := by
  have named : s.namedLoneWorker o = true ↔ ∃ i a, s.alarm i = some a ∧ a.NamesLoneWorker o := by
    simp only [State.namedLoneWorker, alarms_any, namesLoneWorker_iff]
  have cause : s.loneWorkerCause o = true ↔ ∃ i a, s.alarm i = some a ∧ a.NamesLoneWorker o ∧ a.cause = some true := by
    simp only [State.loneWorkerCause, alarms_any, namesLoneWorker_iff, Bool.and_eq_true, decide_eq_true_eq]
  have unnamed : s.namedLoneWorker o = false ↔ ∀ i a, s.alarm i = some a → ¬ a.NamesLoneWorker o := by
    rw [← Bool.not_eq_true, named]
    simp only [not_exists, not_and]
  unfold State.sounding State.Sounds
  cases h : s.watch o with
  | none => simp
  | some w => cases e : w.stage <;> simp [e, ← cause, ← unnamed, or_comm]

/-! ### Expiry (R16) -/

theorem expiryMinute_eq (s : State) (w : WallClock) : s.expiryMinute w = s.minuteRead w := rfl

/-- Check 3 passes: no expiry, or a valid clock whose minute read is before it. -/
theorem checkExpiry_eq_none (s : State) (m : Permit) :
    s.checkExpiry m = none ↔
      m.expiry = none ∨ ∃ e w, m.expiry = some e ∧ s.wall = some w ∧ s.minuteRead w < e := by
  unfold State.checkExpiry
  cases m.expiry with
  | none => simp
  | some e =>
    cases s.wall with
    | none => simp
    | some w =>
      dsimp only [expiryMinute_eq]
      by_cases h : e ≤ s.minuteRead w
      · simp [h, Nat.not_lt.mpr h]
      · simp [h, Nat.not_le.mp h]

end Sys2Proof.Machine
end

