-- ==== Sys2Proof/Laws/State.lean ====
section
/-! SUPPORT. One law per field and update of State: what each field reads after it. All hold by `rfl`. -/

namespace Sys2Proof.Machine

variable (s : State)


/-! ### setPermit -/

@[simp] theorem setPermit_permits (p : PermitIx) (x : Option Permit) : (s.setPermit p x).permits = s.permits.set p x := rfl
@[simp] theorem setPermit_occupants (p : PermitIx) (x : Option Permit) : (s.setPermit p x).occupants = s.occupants := rfl
@[simp] theorem setPermit_lists (p : PermitIx) (x : Option Permit) : (s.setPermit p x).lists = s.lists := rfl
@[simp] theorem setPermit_uncertain (p : PermitIx) (x : Option Permit) : (s.setPermit p x).uncertain = s.uncertain := rfl
@[simp] theorem setPermit_pairs (p : PermitIx) (x : Option Permit) : (s.setPermit p x).pairs = s.pairs := rfl
@[simp] theorem setPermit_doors (p : PermitIx) (x : Option Permit) : (s.setPermit p x).doors = s.doors := rfl
@[simp] theorem setPermit_stations (p : PermitIx) (x : Option Permit) : (s.setPermit p x).stations = s.stations := rfl
@[simp] theorem setPermit_notes (p : PermitIx) (x : Option Permit) : (s.setPermit p x).notes = s.notes := rfl
@[simp] theorem setPermit_loops (p : PermitIx) (x : Option Permit) : (s.setPermit p x).loops = s.loops := rfl
@[simp] theorem setPermit_zones (p : PermitIx) (x : Option Permit) : (s.setPermit p x).zones = s.zones := rfl
@[simp] theorem setPermit_alarms (p : PermitIx) (x : Option Permit) : (s.setPermit p x).alarms = s.alarms := rfl
@[simp] theorem setPermit_overflow (p : PermitIx) (x : Option Permit) : (s.setPermit p x).overflow = s.overflow := rfl
@[simp] theorem setPermit_lostCount (p : PermitIx) (x : Option Permit) : (s.setPermit p x).lostCount = s.lostCount := rfl
@[simp] theorem setPermit_handedRaises (p : PermitIx) (x : Option Permit) : (s.setPermit p x).handedRaises = s.handedRaises := rfl
@[simp] theorem setPermit_uptimeMs (p : PermitIx) (x : Option Permit) : (s.setPermit p x).uptimeMs = s.uptimeMs := rfl
@[simp] theorem setPermit_wall (p : PermitIx) (x : Option Permit) : (s.setPermit p x).wall = s.wall := rfl
@[simp] theorem setPermit_decision (p : PermitIx) (x : Option Permit) : (s.setPermit p x).decision = s.decision := rfl
@[simp] theorem setPermit_reference (p : PermitIx) (x : Option Permit) : (s.setPermit p x).reference = s.reference := rfl
@[simp] theorem setPermit_framer (p : PermitIx) (x : Option Permit) : (s.setPermit p x).framer = s.framer := rfl
@[simp] theorem setPermit_changes (p : PermitIx) (x : Option Permit) : (s.setPermit p x).changes = s.changes := rfl
@[simp] theorem setPermit_attentionMask (p : PermitIx) (x : Option Permit) : (s.setPermit p x).attentionMask = s.attentionMask := rfl
@[simp] theorem setPermit_supplyRestarted (p : PermitIx) (x : Option Permit) : (s.setPermit p x).supplyRestarted = s.supplyRestarted := rfl
@[simp] theorem setPermit_settingsDefaulted (p : PermitIx) (x : Option Permit) : (s.setPermit p x).settingsDefaulted = s.settingsDefaulted := rfl
@[simp] theorem setPermit_commitFailed (p : PermitIx) (x : Option Permit) : (s.setPermit p x).commitFailed = s.commitFailed := rfl
@[simp] theorem setPermit_settings (p : PermitIx) (x : Option Permit) : (s.setPermit p x).settings = s.settings := rfl
@[simp] theorem setPermit_image (p : PermitIx) (x : Option Permit) : (s.setPermit p x).image = s.image := rfl
@[simp] theorem setPermit_commit (p : PermitIx) (x : Option Permit) : (s.setPermit p x).commit = s.commit := rfl
@[simp] theorem setPermit_power (p : PermitIx) (x : Option Permit) : (s.setPermit p x).power = s.power := rfl
@[simp] theorem setPermit_supply (p : PermitIx) (x : Option Permit) : (s.setPermit p x).supply = s.supply := rfl
@[simp] theorem setPermit_keyOn (p : PermitIx) (x : Option Permit) : (s.setPermit p x).keyOn = s.keyOn := rfl
@[simp] theorem setPermit_pending (p : PermitIx) (x : Option Permit) : (s.setPermit p x).pending = s.pending := rfl

/-! ### setOccupant -/

@[simp] theorem setOccupant_permits (o : Slot) (x : Option Occupant) : (s.setOccupant o x).permits = s.permits := rfl
@[simp] theorem setOccupant_occupants (o : Slot) (x : Option Occupant) : (s.setOccupant o x).occupants = s.occupants.set o x := rfl
@[simp] theorem setOccupant_lists (o : Slot) (x : Option Occupant) : (s.setOccupant o x).lists = s.lists := rfl
@[simp] theorem setOccupant_uncertain (o : Slot) (x : Option Occupant) : (s.setOccupant o x).uncertain = s.uncertain := rfl
@[simp] theorem setOccupant_pairs (o : Slot) (x : Option Occupant) : (s.setOccupant o x).pairs = s.pairs := rfl
@[simp] theorem setOccupant_doors (o : Slot) (x : Option Occupant) : (s.setOccupant o x).doors = s.doors := rfl
@[simp] theorem setOccupant_stations (o : Slot) (x : Option Occupant) : (s.setOccupant o x).stations = s.stations := rfl
@[simp] theorem setOccupant_notes (o : Slot) (x : Option Occupant) : (s.setOccupant o x).notes = s.notes := rfl
@[simp] theorem setOccupant_loops (o : Slot) (x : Option Occupant) : (s.setOccupant o x).loops = s.loops := rfl
@[simp] theorem setOccupant_zones (o : Slot) (x : Option Occupant) : (s.setOccupant o x).zones = s.zones := rfl
@[simp] theorem setOccupant_alarms (o : Slot) (x : Option Occupant) : (s.setOccupant o x).alarms = s.alarms := rfl
@[simp] theorem setOccupant_overflow (o : Slot) (x : Option Occupant) : (s.setOccupant o x).overflow = s.overflow := rfl
@[simp] theorem setOccupant_lostCount (o : Slot) (x : Option Occupant) : (s.setOccupant o x).lostCount = s.lostCount := rfl
@[simp] theorem setOccupant_handedRaises (o : Slot) (x : Option Occupant) : (s.setOccupant o x).handedRaises = s.handedRaises := rfl
@[simp] theorem setOccupant_uptimeMs (o : Slot) (x : Option Occupant) : (s.setOccupant o x).uptimeMs = s.uptimeMs := rfl
@[simp] theorem setOccupant_wall (o : Slot) (x : Option Occupant) : (s.setOccupant o x).wall = s.wall := rfl
@[simp] theorem setOccupant_decision (o : Slot) (x : Option Occupant) : (s.setOccupant o x).decision = s.decision := rfl
@[simp] theorem setOccupant_reference (o : Slot) (x : Option Occupant) : (s.setOccupant o x).reference = s.reference := rfl
@[simp] theorem setOccupant_framer (o : Slot) (x : Option Occupant) : (s.setOccupant o x).framer = s.framer := rfl
@[simp] theorem setOccupant_changes (o : Slot) (x : Option Occupant) : (s.setOccupant o x).changes = s.changes := rfl
@[simp] theorem setOccupant_attentionMask (o : Slot) (x : Option Occupant) : (s.setOccupant o x).attentionMask = s.attentionMask := rfl
@[simp] theorem setOccupant_supplyRestarted (o : Slot) (x : Option Occupant) : (s.setOccupant o x).supplyRestarted = s.supplyRestarted := rfl
@[simp] theorem setOccupant_settingsDefaulted (o : Slot) (x : Option Occupant) : (s.setOccupant o x).settingsDefaulted = s.settingsDefaulted := rfl
@[simp] theorem setOccupant_commitFailed (o : Slot) (x : Option Occupant) : (s.setOccupant o x).commitFailed = s.commitFailed := rfl
@[simp] theorem setOccupant_settings (o : Slot) (x : Option Occupant) : (s.setOccupant o x).settings = s.settings := rfl
@[simp] theorem setOccupant_image (o : Slot) (x : Option Occupant) : (s.setOccupant o x).image = s.image := rfl
@[simp] theorem setOccupant_commit (o : Slot) (x : Option Occupant) : (s.setOccupant o x).commit = s.commit := rfl
@[simp] theorem setOccupant_power (o : Slot) (x : Option Occupant) : (s.setOccupant o x).power = s.power := rfl
@[simp] theorem setOccupant_supply (o : Slot) (x : Option Occupant) : (s.setOccupant o x).supply = s.supply := rfl
@[simp] theorem setOccupant_keyOn (o : Slot) (x : Option Occupant) : (s.setOccupant o x).keyOn = s.keyOn := rfl
@[simp] theorem setOccupant_pending (o : Slot) (x : Option Occupant) : (s.setOccupant o x).pending = s.pending := rfl

/-! ### setList -/

@[simp] theorem setList_permits (r : Room) (x : List Slot) : (s.setList r x).permits = s.permits := rfl
@[simp] theorem setList_occupants (r : Room) (x : List Slot) : (s.setList r x).occupants = s.occupants := rfl
@[simp] theorem setList_lists (r : Room) (x : List Slot) : (s.setList r x).lists = s.lists.set r x := rfl
@[simp] theorem setList_uncertain (r : Room) (x : List Slot) : (s.setList r x).uncertain = s.uncertain := rfl
@[simp] theorem setList_pairs (r : Room) (x : List Slot) : (s.setList r x).pairs = s.pairs := rfl
@[simp] theorem setList_doors (r : Room) (x : List Slot) : (s.setList r x).doors = s.doors := rfl
@[simp] theorem setList_stations (r : Room) (x : List Slot) : (s.setList r x).stations = s.stations := rfl
@[simp] theorem setList_notes (r : Room) (x : List Slot) : (s.setList r x).notes = s.notes := rfl
@[simp] theorem setList_loops (r : Room) (x : List Slot) : (s.setList r x).loops = s.loops := rfl
@[simp] theorem setList_zones (r : Room) (x : List Slot) : (s.setList r x).zones = s.zones := rfl
@[simp] theorem setList_alarms (r : Room) (x : List Slot) : (s.setList r x).alarms = s.alarms := rfl
@[simp] theorem setList_overflow (r : Room) (x : List Slot) : (s.setList r x).overflow = s.overflow := rfl
@[simp] theorem setList_lostCount (r : Room) (x : List Slot) : (s.setList r x).lostCount = s.lostCount := rfl
@[simp] theorem setList_handedRaises (r : Room) (x : List Slot) : (s.setList r x).handedRaises = s.handedRaises := rfl
@[simp] theorem setList_uptimeMs (r : Room) (x : List Slot) : (s.setList r x).uptimeMs = s.uptimeMs := rfl
@[simp] theorem setList_wall (r : Room) (x : List Slot) : (s.setList r x).wall = s.wall := rfl
@[simp] theorem setList_decision (r : Room) (x : List Slot) : (s.setList r x).decision = s.decision := rfl
@[simp] theorem setList_reference (r : Room) (x : List Slot) : (s.setList r x).reference = s.reference := rfl
@[simp] theorem setList_framer (r : Room) (x : List Slot) : (s.setList r x).framer = s.framer := rfl
@[simp] theorem setList_changes (r : Room) (x : List Slot) : (s.setList r x).changes = s.changes := rfl
@[simp] theorem setList_attentionMask (r : Room) (x : List Slot) : (s.setList r x).attentionMask = s.attentionMask := rfl
@[simp] theorem setList_supplyRestarted (r : Room) (x : List Slot) : (s.setList r x).supplyRestarted = s.supplyRestarted := rfl
@[simp] theorem setList_settingsDefaulted (r : Room) (x : List Slot) : (s.setList r x).settingsDefaulted = s.settingsDefaulted := rfl
@[simp] theorem setList_commitFailed (r : Room) (x : List Slot) : (s.setList r x).commitFailed = s.commitFailed := rfl
@[simp] theorem setList_settings (r : Room) (x : List Slot) : (s.setList r x).settings = s.settings := rfl
@[simp] theorem setList_image (r : Room) (x : List Slot) : (s.setList r x).image = s.image := rfl
@[simp] theorem setList_commit (r : Room) (x : List Slot) : (s.setList r x).commit = s.commit := rfl
@[simp] theorem setList_power (r : Room) (x : List Slot) : (s.setList r x).power = s.power := rfl
@[simp] theorem setList_supply (r : Room) (x : List Slot) : (s.setList r x).supply = s.supply := rfl
@[simp] theorem setList_keyOn (r : Room) (x : List Slot) : (s.setList r x).keyOn = s.keyOn := rfl
@[simp] theorem setList_pending (r : Room) (x : List Slot) : (s.setList r x).pending = s.pending := rfl

/-! ### setPair -/

@[simp] theorem setPair_permits (r : Room) (x : Option PendingPair) : (s.setPair r x).permits = s.permits := rfl
@[simp] theorem setPair_occupants (r : Room) (x : Option PendingPair) : (s.setPair r x).occupants = s.occupants := rfl
@[simp] theorem setPair_lists (r : Room) (x : Option PendingPair) : (s.setPair r x).lists = s.lists := rfl
@[simp] theorem setPair_uncertain (r : Room) (x : Option PendingPair) : (s.setPair r x).uncertain = s.uncertain := rfl
@[simp] theorem setPair_pairs (r : Room) (x : Option PendingPair) : (s.setPair r x).pairs = s.pairs.set r x := rfl
@[simp] theorem setPair_doors (r : Room) (x : Option PendingPair) : (s.setPair r x).doors = s.doors := rfl
@[simp] theorem setPair_stations (r : Room) (x : Option PendingPair) : (s.setPair r x).stations = s.stations := rfl
@[simp] theorem setPair_notes (r : Room) (x : Option PendingPair) : (s.setPair r x).notes = s.notes := rfl
@[simp] theorem setPair_loops (r : Room) (x : Option PendingPair) : (s.setPair r x).loops = s.loops := rfl
@[simp] theorem setPair_zones (r : Room) (x : Option PendingPair) : (s.setPair r x).zones = s.zones := rfl
@[simp] theorem setPair_alarms (r : Room) (x : Option PendingPair) : (s.setPair r x).alarms = s.alarms := rfl
@[simp] theorem setPair_overflow (r : Room) (x : Option PendingPair) : (s.setPair r x).overflow = s.overflow := rfl
@[simp] theorem setPair_lostCount (r : Room) (x : Option PendingPair) : (s.setPair r x).lostCount = s.lostCount := rfl
@[simp] theorem setPair_handedRaises (r : Room) (x : Option PendingPair) : (s.setPair r x).handedRaises = s.handedRaises := rfl
@[simp] theorem setPair_uptimeMs (r : Room) (x : Option PendingPair) : (s.setPair r x).uptimeMs = s.uptimeMs := rfl
@[simp] theorem setPair_wall (r : Room) (x : Option PendingPair) : (s.setPair r x).wall = s.wall := rfl
@[simp] theorem setPair_decision (r : Room) (x : Option PendingPair) : (s.setPair r x).decision = s.decision := rfl
@[simp] theorem setPair_reference (r : Room) (x : Option PendingPair) : (s.setPair r x).reference = s.reference := rfl
@[simp] theorem setPair_framer (r : Room) (x : Option PendingPair) : (s.setPair r x).framer = s.framer := rfl
@[simp] theorem setPair_changes (r : Room) (x : Option PendingPair) : (s.setPair r x).changes = s.changes := rfl
@[simp] theorem setPair_attentionMask (r : Room) (x : Option PendingPair) : (s.setPair r x).attentionMask = s.attentionMask := rfl
@[simp] theorem setPair_supplyRestarted (r : Room) (x : Option PendingPair) : (s.setPair r x).supplyRestarted = s.supplyRestarted := rfl
@[simp] theorem setPair_settingsDefaulted (r : Room) (x : Option PendingPair) : (s.setPair r x).settingsDefaulted = s.settingsDefaulted := rfl
@[simp] theorem setPair_commitFailed (r : Room) (x : Option PendingPair) : (s.setPair r x).commitFailed = s.commitFailed := rfl
@[simp] theorem setPair_settings (r : Room) (x : Option PendingPair) : (s.setPair r x).settings = s.settings := rfl
@[simp] theorem setPair_image (r : Room) (x : Option PendingPair) : (s.setPair r x).image = s.image := rfl
@[simp] theorem setPair_commit (r : Room) (x : Option PendingPair) : (s.setPair r x).commit = s.commit := rfl
@[simp] theorem setPair_power (r : Room) (x : Option PendingPair) : (s.setPair r x).power = s.power := rfl
@[simp] theorem setPair_supply (r : Room) (x : Option PendingPair) : (s.setPair r x).supply = s.supply := rfl
@[simp] theorem setPair_keyOn (r : Room) (x : Option PendingPair) : (s.setPair r x).keyOn = s.keyOn := rfl
@[simp] theorem setPair_pending (r : Room) (x : Option PendingPair) : (s.setPair r x).pending = s.pending := rfl

/-! ### setDoor -/

@[simp] theorem setDoor_permits (d : DoorNo) (x : Door) : (s.setDoor d x).permits = s.permits := rfl
@[simp] theorem setDoor_occupants (d : DoorNo) (x : Door) : (s.setDoor d x).occupants = s.occupants := rfl
@[simp] theorem setDoor_lists (d : DoorNo) (x : Door) : (s.setDoor d x).lists = s.lists := rfl
@[simp] theorem setDoor_uncertain (d : DoorNo) (x : Door) : (s.setDoor d x).uncertain = s.uncertain := rfl
@[simp] theorem setDoor_pairs (d : DoorNo) (x : Door) : (s.setDoor d x).pairs = s.pairs := rfl
@[simp] theorem setDoor_doors (d : DoorNo) (x : Door) : (s.setDoor d x).doors = s.doors.set d x := rfl
@[simp] theorem setDoor_stations (d : DoorNo) (x : Door) : (s.setDoor d x).stations = s.stations := rfl
@[simp] theorem setDoor_notes (d : DoorNo) (x : Door) : (s.setDoor d x).notes = s.notes := rfl
@[simp] theorem setDoor_loops (d : DoorNo) (x : Door) : (s.setDoor d x).loops = s.loops := rfl
@[simp] theorem setDoor_zones (d : DoorNo) (x : Door) : (s.setDoor d x).zones = s.zones := rfl
@[simp] theorem setDoor_alarms (d : DoorNo) (x : Door) : (s.setDoor d x).alarms = s.alarms := rfl
@[simp] theorem setDoor_overflow (d : DoorNo) (x : Door) : (s.setDoor d x).overflow = s.overflow := rfl
@[simp] theorem setDoor_lostCount (d : DoorNo) (x : Door) : (s.setDoor d x).lostCount = s.lostCount := rfl
@[simp] theorem setDoor_handedRaises (d : DoorNo) (x : Door) : (s.setDoor d x).handedRaises = s.handedRaises := rfl
@[simp] theorem setDoor_uptimeMs (d : DoorNo) (x : Door) : (s.setDoor d x).uptimeMs = s.uptimeMs := rfl
@[simp] theorem setDoor_wall (d : DoorNo) (x : Door) : (s.setDoor d x).wall = s.wall := rfl
@[simp] theorem setDoor_decision (d : DoorNo) (x : Door) : (s.setDoor d x).decision = s.decision := rfl
@[simp] theorem setDoor_reference (d : DoorNo) (x : Door) : (s.setDoor d x).reference = s.reference := rfl
@[simp] theorem setDoor_framer (d : DoorNo) (x : Door) : (s.setDoor d x).framer = s.framer := rfl
@[simp] theorem setDoor_changes (d : DoorNo) (x : Door) : (s.setDoor d x).changes = s.changes := rfl
@[simp] theorem setDoor_attentionMask (d : DoorNo) (x : Door) : (s.setDoor d x).attentionMask = s.attentionMask := rfl
@[simp] theorem setDoor_supplyRestarted (d : DoorNo) (x : Door) : (s.setDoor d x).supplyRestarted = s.supplyRestarted := rfl
@[simp] theorem setDoor_settingsDefaulted (d : DoorNo) (x : Door) : (s.setDoor d x).settingsDefaulted = s.settingsDefaulted := rfl
@[simp] theorem setDoor_commitFailed (d : DoorNo) (x : Door) : (s.setDoor d x).commitFailed = s.commitFailed := rfl
@[simp] theorem setDoor_settings (d : DoorNo) (x : Door) : (s.setDoor d x).settings = s.settings := rfl
@[simp] theorem setDoor_image (d : DoorNo) (x : Door) : (s.setDoor d x).image = s.image := rfl
@[simp] theorem setDoor_commit (d : DoorNo) (x : Door) : (s.setDoor d x).commit = s.commit := rfl
@[simp] theorem setDoor_power (d : DoorNo) (x : Door) : (s.setDoor d x).power = s.power := rfl
@[simp] theorem setDoor_supply (d : DoorNo) (x : Door) : (s.setDoor d x).supply = s.supply := rfl
@[simp] theorem setDoor_keyOn (d : DoorNo) (x : Door) : (s.setDoor d x).keyOn = s.keyOn := rfl
@[simp] theorem setDoor_pending (d : DoorNo) (x : Door) : (s.setDoor d x).pending = s.pending := rfl

/-! ### modDoor -/

@[simp] theorem modDoor_permits (d : DoorNo) (f : Door → Door) : (s.modDoor d f).permits = s.permits := rfl
@[simp] theorem modDoor_occupants (d : DoorNo) (f : Door → Door) : (s.modDoor d f).occupants = s.occupants := rfl
@[simp] theorem modDoor_lists (d : DoorNo) (f : Door → Door) : (s.modDoor d f).lists = s.lists := rfl
@[simp] theorem modDoor_uncertain (d : DoorNo) (f : Door → Door) : (s.modDoor d f).uncertain = s.uncertain := rfl
@[simp] theorem modDoor_pairs (d : DoorNo) (f : Door → Door) : (s.modDoor d f).pairs = s.pairs := rfl
@[simp] theorem modDoor_doors (d : DoorNo) (f : Door → Door) : (s.modDoor d f).doors = s.doors.set d (f (s.door d)) := rfl
@[simp] theorem modDoor_stations (d : DoorNo) (f : Door → Door) : (s.modDoor d f).stations = s.stations := rfl
@[simp] theorem modDoor_notes (d : DoorNo) (f : Door → Door) : (s.modDoor d f).notes = s.notes := rfl
@[simp] theorem modDoor_loops (d : DoorNo) (f : Door → Door) : (s.modDoor d f).loops = s.loops := rfl
@[simp] theorem modDoor_zones (d : DoorNo) (f : Door → Door) : (s.modDoor d f).zones = s.zones := rfl
@[simp] theorem modDoor_alarms (d : DoorNo) (f : Door → Door) : (s.modDoor d f).alarms = s.alarms := rfl
@[simp] theorem modDoor_overflow (d : DoorNo) (f : Door → Door) : (s.modDoor d f).overflow = s.overflow := rfl
@[simp] theorem modDoor_lostCount (d : DoorNo) (f : Door → Door) : (s.modDoor d f).lostCount = s.lostCount := rfl
@[simp] theorem modDoor_handedRaises (d : DoorNo) (f : Door → Door) : (s.modDoor d f).handedRaises = s.handedRaises := rfl
@[simp] theorem modDoor_uptimeMs (d : DoorNo) (f : Door → Door) : (s.modDoor d f).uptimeMs = s.uptimeMs := rfl
@[simp] theorem modDoor_wall (d : DoorNo) (f : Door → Door) : (s.modDoor d f).wall = s.wall := rfl
@[simp] theorem modDoor_decision (d : DoorNo) (f : Door → Door) : (s.modDoor d f).decision = s.decision := rfl
@[simp] theorem modDoor_reference (d : DoorNo) (f : Door → Door) : (s.modDoor d f).reference = s.reference := rfl
@[simp] theorem modDoor_framer (d : DoorNo) (f : Door → Door) : (s.modDoor d f).framer = s.framer := rfl
@[simp] theorem modDoor_changes (d : DoorNo) (f : Door → Door) : (s.modDoor d f).changes = s.changes := rfl
@[simp] theorem modDoor_attentionMask (d : DoorNo) (f : Door → Door) : (s.modDoor d f).attentionMask = s.attentionMask := rfl
@[simp] theorem modDoor_supplyRestarted (d : DoorNo) (f : Door → Door) : (s.modDoor d f).supplyRestarted = s.supplyRestarted := rfl
@[simp] theorem modDoor_settingsDefaulted (d : DoorNo) (f : Door → Door) : (s.modDoor d f).settingsDefaulted = s.settingsDefaulted := rfl
@[simp] theorem modDoor_commitFailed (d : DoorNo) (f : Door → Door) : (s.modDoor d f).commitFailed = s.commitFailed := rfl
@[simp] theorem modDoor_settings (d : DoorNo) (f : Door → Door) : (s.modDoor d f).settings = s.settings := rfl
@[simp] theorem modDoor_image (d : DoorNo) (f : Door → Door) : (s.modDoor d f).image = s.image := rfl
@[simp] theorem modDoor_commit (d : DoorNo) (f : Door → Door) : (s.modDoor d f).commit = s.commit := rfl
@[simp] theorem modDoor_power (d : DoorNo) (f : Door → Door) : (s.modDoor d f).power = s.power := rfl
@[simp] theorem modDoor_supply (d : DoorNo) (f : Door → Door) : (s.modDoor d f).supply = s.supply := rfl
@[simp] theorem modDoor_keyOn (d : DoorNo) (f : Door → Door) : (s.modDoor d f).keyOn = s.keyOn := rfl
@[simp] theorem modDoor_pending (d : DoorNo) (f : Door → Door) : (s.modDoor d f).pending = s.pending := rfl

/-! ### setStation -/

@[simp] theorem setStation_permits (t : StationId) (x : Station) : (s.setStation t x).permits = s.permits := rfl
@[simp] theorem setStation_occupants (t : StationId) (x : Station) : (s.setStation t x).occupants = s.occupants := rfl
@[simp] theorem setStation_lists (t : StationId) (x : Station) : (s.setStation t x).lists = s.lists := rfl
@[simp] theorem setStation_uncertain (t : StationId) (x : Station) : (s.setStation t x).uncertain = s.uncertain := rfl
@[simp] theorem setStation_pairs (t : StationId) (x : Station) : (s.setStation t x).pairs = s.pairs := rfl
@[simp] theorem setStation_doors (t : StationId) (x : Station) : (s.setStation t x).doors = s.doors := rfl
@[simp] theorem setStation_stations (t : StationId) (x : Station) : (s.setStation t x).stations = s.stations.set t x := rfl
@[simp] theorem setStation_notes (t : StationId) (x : Station) : (s.setStation t x).notes = s.notes := rfl
@[simp] theorem setStation_loops (t : StationId) (x : Station) : (s.setStation t x).loops = s.loops := rfl
@[simp] theorem setStation_zones (t : StationId) (x : Station) : (s.setStation t x).zones = s.zones := rfl
@[simp] theorem setStation_alarms (t : StationId) (x : Station) : (s.setStation t x).alarms = s.alarms := rfl
@[simp] theorem setStation_overflow (t : StationId) (x : Station) : (s.setStation t x).overflow = s.overflow := rfl
@[simp] theorem setStation_lostCount (t : StationId) (x : Station) : (s.setStation t x).lostCount = s.lostCount := rfl
@[simp] theorem setStation_handedRaises (t : StationId) (x : Station) : (s.setStation t x).handedRaises = s.handedRaises := rfl
@[simp] theorem setStation_uptimeMs (t : StationId) (x : Station) : (s.setStation t x).uptimeMs = s.uptimeMs := rfl
@[simp] theorem setStation_wall (t : StationId) (x : Station) : (s.setStation t x).wall = s.wall := rfl
@[simp] theorem setStation_decision (t : StationId) (x : Station) : (s.setStation t x).decision = s.decision := rfl
@[simp] theorem setStation_reference (t : StationId) (x : Station) : (s.setStation t x).reference = s.reference := rfl
@[simp] theorem setStation_framer (t : StationId) (x : Station) : (s.setStation t x).framer = s.framer := rfl
@[simp] theorem setStation_changes (t : StationId) (x : Station) : (s.setStation t x).changes = s.changes := rfl
@[simp] theorem setStation_attentionMask (t : StationId) (x : Station) : (s.setStation t x).attentionMask = s.attentionMask := rfl
@[simp] theorem setStation_supplyRestarted (t : StationId) (x : Station) : (s.setStation t x).supplyRestarted = s.supplyRestarted := rfl
@[simp] theorem setStation_settingsDefaulted (t : StationId) (x : Station) : (s.setStation t x).settingsDefaulted = s.settingsDefaulted := rfl
@[simp] theorem setStation_commitFailed (t : StationId) (x : Station) : (s.setStation t x).commitFailed = s.commitFailed := rfl
@[simp] theorem setStation_settings (t : StationId) (x : Station) : (s.setStation t x).settings = s.settings := rfl
@[simp] theorem setStation_image (t : StationId) (x : Station) : (s.setStation t x).image = s.image := rfl
@[simp] theorem setStation_commit (t : StationId) (x : Station) : (s.setStation t x).commit = s.commit := rfl
@[simp] theorem setStation_power (t : StationId) (x : Station) : (s.setStation t x).power = s.power := rfl
@[simp] theorem setStation_supply (t : StationId) (x : Station) : (s.setStation t x).supply = s.supply := rfl
@[simp] theorem setStation_keyOn (t : StationId) (x : Station) : (s.setStation t x).keyOn = s.keyOn := rfl
@[simp] theorem setStation_pending (t : StationId) (x : Station) : (s.setStation t x).pending = s.pending := rfl

/-! ### setNote -/

@[simp] theorem setNote_permits (t : StationId) (x : HandshakeNotes) : (s.setNote t x).permits = s.permits := rfl
@[simp] theorem setNote_occupants (t : StationId) (x : HandshakeNotes) : (s.setNote t x).occupants = s.occupants := rfl
@[simp] theorem setNote_lists (t : StationId) (x : HandshakeNotes) : (s.setNote t x).lists = s.lists := rfl
@[simp] theorem setNote_uncertain (t : StationId) (x : HandshakeNotes) : (s.setNote t x).uncertain = s.uncertain := rfl
@[simp] theorem setNote_pairs (t : StationId) (x : HandshakeNotes) : (s.setNote t x).pairs = s.pairs := rfl
@[simp] theorem setNote_doors (t : StationId) (x : HandshakeNotes) : (s.setNote t x).doors = s.doors := rfl
@[simp] theorem setNote_stations (t : StationId) (x : HandshakeNotes) : (s.setNote t x).stations = s.stations := rfl
@[simp] theorem setNote_notes (t : StationId) (x : HandshakeNotes) : (s.setNote t x).notes = s.notes.set t x := rfl
@[simp] theorem setNote_loops (t : StationId) (x : HandshakeNotes) : (s.setNote t x).loops = s.loops := rfl
@[simp] theorem setNote_zones (t : StationId) (x : HandshakeNotes) : (s.setNote t x).zones = s.zones := rfl
@[simp] theorem setNote_alarms (t : StationId) (x : HandshakeNotes) : (s.setNote t x).alarms = s.alarms := rfl
@[simp] theorem setNote_overflow (t : StationId) (x : HandshakeNotes) : (s.setNote t x).overflow = s.overflow := rfl
@[simp] theorem setNote_lostCount (t : StationId) (x : HandshakeNotes) : (s.setNote t x).lostCount = s.lostCount := rfl
@[simp] theorem setNote_handedRaises (t : StationId) (x : HandshakeNotes) : (s.setNote t x).handedRaises = s.handedRaises := rfl
@[simp] theorem setNote_uptimeMs (t : StationId) (x : HandshakeNotes) : (s.setNote t x).uptimeMs = s.uptimeMs := rfl
@[simp] theorem setNote_wall (t : StationId) (x : HandshakeNotes) : (s.setNote t x).wall = s.wall := rfl
@[simp] theorem setNote_decision (t : StationId) (x : HandshakeNotes) : (s.setNote t x).decision = s.decision := rfl
@[simp] theorem setNote_reference (t : StationId) (x : HandshakeNotes) : (s.setNote t x).reference = s.reference := rfl
@[simp] theorem setNote_framer (t : StationId) (x : HandshakeNotes) : (s.setNote t x).framer = s.framer := rfl
@[simp] theorem setNote_changes (t : StationId) (x : HandshakeNotes) : (s.setNote t x).changes = s.changes := rfl
@[simp] theorem setNote_attentionMask (t : StationId) (x : HandshakeNotes) : (s.setNote t x).attentionMask = s.attentionMask := rfl
@[simp] theorem setNote_supplyRestarted (t : StationId) (x : HandshakeNotes) : (s.setNote t x).supplyRestarted = s.supplyRestarted := rfl
@[simp] theorem setNote_settingsDefaulted (t : StationId) (x : HandshakeNotes) : (s.setNote t x).settingsDefaulted = s.settingsDefaulted := rfl
@[simp] theorem setNote_commitFailed (t : StationId) (x : HandshakeNotes) : (s.setNote t x).commitFailed = s.commitFailed := rfl
@[simp] theorem setNote_settings (t : StationId) (x : HandshakeNotes) : (s.setNote t x).settings = s.settings := rfl
@[simp] theorem setNote_image (t : StationId) (x : HandshakeNotes) : (s.setNote t x).image = s.image := rfl
@[simp] theorem setNote_commit (t : StationId) (x : HandshakeNotes) : (s.setNote t x).commit = s.commit := rfl
@[simp] theorem setNote_power (t : StationId) (x : HandshakeNotes) : (s.setNote t x).power = s.power := rfl
@[simp] theorem setNote_supply (t : StationId) (x : HandshakeNotes) : (s.setNote t x).supply = s.supply := rfl
@[simp] theorem setNote_keyOn (t : StationId) (x : HandshakeNotes) : (s.setNote t x).keyOn = s.keyOn := rfl
@[simp] theorem setNote_pending (t : StationId) (x : HandshakeNotes) : (s.setNote t x).pending = s.pending := rfl

/-! ### setZone -/

@[simp] theorem setZone_permits (z : Room) (x : Zone) : (s.setZone z x).permits = s.permits := rfl
@[simp] theorem setZone_occupants (z : Room) (x : Zone) : (s.setZone z x).occupants = s.occupants := rfl
@[simp] theorem setZone_lists (z : Room) (x : Zone) : (s.setZone z x).lists = s.lists := rfl
@[simp] theorem setZone_uncertain (z : Room) (x : Zone) : (s.setZone z x).uncertain = s.uncertain := rfl
@[simp] theorem setZone_pairs (z : Room) (x : Zone) : (s.setZone z x).pairs = s.pairs := rfl
@[simp] theorem setZone_doors (z : Room) (x : Zone) : (s.setZone z x).doors = s.doors := rfl
@[simp] theorem setZone_stations (z : Room) (x : Zone) : (s.setZone z x).stations = s.stations := rfl
@[simp] theorem setZone_notes (z : Room) (x : Zone) : (s.setZone z x).notes = s.notes := rfl
@[simp] theorem setZone_loops (z : Room) (x : Zone) : (s.setZone z x).loops = s.loops := rfl
@[simp] theorem setZone_zones (z : Room) (x : Zone) : (s.setZone z x).zones = s.zones.set z x := rfl
@[simp] theorem setZone_alarms (z : Room) (x : Zone) : (s.setZone z x).alarms = s.alarms := rfl
@[simp] theorem setZone_overflow (z : Room) (x : Zone) : (s.setZone z x).overflow = s.overflow := rfl
@[simp] theorem setZone_lostCount (z : Room) (x : Zone) : (s.setZone z x).lostCount = s.lostCount := rfl
@[simp] theorem setZone_handedRaises (z : Room) (x : Zone) : (s.setZone z x).handedRaises = s.handedRaises := rfl
@[simp] theorem setZone_uptimeMs (z : Room) (x : Zone) : (s.setZone z x).uptimeMs = s.uptimeMs := rfl
@[simp] theorem setZone_wall (z : Room) (x : Zone) : (s.setZone z x).wall = s.wall := rfl
@[simp] theorem setZone_decision (z : Room) (x : Zone) : (s.setZone z x).decision = s.decision := rfl
@[simp] theorem setZone_reference (z : Room) (x : Zone) : (s.setZone z x).reference = s.reference := rfl
@[simp] theorem setZone_framer (z : Room) (x : Zone) : (s.setZone z x).framer = s.framer := rfl
@[simp] theorem setZone_changes (z : Room) (x : Zone) : (s.setZone z x).changes = s.changes := rfl
@[simp] theorem setZone_attentionMask (z : Room) (x : Zone) : (s.setZone z x).attentionMask = s.attentionMask := rfl
@[simp] theorem setZone_supplyRestarted (z : Room) (x : Zone) : (s.setZone z x).supplyRestarted = s.supplyRestarted := rfl
@[simp] theorem setZone_settingsDefaulted (z : Room) (x : Zone) : (s.setZone z x).settingsDefaulted = s.settingsDefaulted := rfl
@[simp] theorem setZone_commitFailed (z : Room) (x : Zone) : (s.setZone z x).commitFailed = s.commitFailed := rfl
@[simp] theorem setZone_settings (z : Room) (x : Zone) : (s.setZone z x).settings = s.settings := rfl
@[simp] theorem setZone_image (z : Room) (x : Zone) : (s.setZone z x).image = s.image := rfl
@[simp] theorem setZone_commit (z : Room) (x : Zone) : (s.setZone z x).commit = s.commit := rfl
@[simp] theorem setZone_power (z : Room) (x : Zone) : (s.setZone z x).power = s.power := rfl
@[simp] theorem setZone_supply (z : Room) (x : Zone) : (s.setZone z x).supply = s.supply := rfl
@[simp] theorem setZone_keyOn (z : Room) (x : Zone) : (s.setZone z x).keyOn = s.keyOn := rfl
@[simp] theorem setZone_pending (z : Room) (x : Zone) : (s.setZone z x).pending = s.pending := rfl

/-! ### setAlarm -/

@[simp] theorem setAlarm_permits (a : AlarmSlot) (x : Option Alarm) : (s.setAlarm a x).permits = s.permits := rfl
@[simp] theorem setAlarm_occupants (a : AlarmSlot) (x : Option Alarm) : (s.setAlarm a x).occupants = s.occupants := rfl
@[simp] theorem setAlarm_lists (a : AlarmSlot) (x : Option Alarm) : (s.setAlarm a x).lists = s.lists := rfl
@[simp] theorem setAlarm_uncertain (a : AlarmSlot) (x : Option Alarm) : (s.setAlarm a x).uncertain = s.uncertain := rfl
@[simp] theorem setAlarm_pairs (a : AlarmSlot) (x : Option Alarm) : (s.setAlarm a x).pairs = s.pairs := rfl
@[simp] theorem setAlarm_doors (a : AlarmSlot) (x : Option Alarm) : (s.setAlarm a x).doors = s.doors := rfl
@[simp] theorem setAlarm_stations (a : AlarmSlot) (x : Option Alarm) : (s.setAlarm a x).stations = s.stations := rfl
@[simp] theorem setAlarm_notes (a : AlarmSlot) (x : Option Alarm) : (s.setAlarm a x).notes = s.notes := rfl
@[simp] theorem setAlarm_loops (a : AlarmSlot) (x : Option Alarm) : (s.setAlarm a x).loops = s.loops := rfl
@[simp] theorem setAlarm_zones (a : AlarmSlot) (x : Option Alarm) : (s.setAlarm a x).zones = s.zones := rfl
@[simp] theorem setAlarm_alarms (a : AlarmSlot) (x : Option Alarm) : (s.setAlarm a x).alarms = s.alarms.set a x := rfl
@[simp] theorem setAlarm_overflow (a : AlarmSlot) (x : Option Alarm) : (s.setAlarm a x).overflow = s.overflow := rfl
@[simp] theorem setAlarm_lostCount (a : AlarmSlot) (x : Option Alarm) : (s.setAlarm a x).lostCount = s.lostCount := rfl
@[simp] theorem setAlarm_handedRaises (a : AlarmSlot) (x : Option Alarm) : (s.setAlarm a x).handedRaises = s.handedRaises := rfl
@[simp] theorem setAlarm_uptimeMs (a : AlarmSlot) (x : Option Alarm) : (s.setAlarm a x).uptimeMs = s.uptimeMs := rfl
@[simp] theorem setAlarm_wall (a : AlarmSlot) (x : Option Alarm) : (s.setAlarm a x).wall = s.wall := rfl
@[simp] theorem setAlarm_decision (a : AlarmSlot) (x : Option Alarm) : (s.setAlarm a x).decision = s.decision := rfl
@[simp] theorem setAlarm_reference (a : AlarmSlot) (x : Option Alarm) : (s.setAlarm a x).reference = s.reference := rfl
@[simp] theorem setAlarm_framer (a : AlarmSlot) (x : Option Alarm) : (s.setAlarm a x).framer = s.framer := rfl
@[simp] theorem setAlarm_changes (a : AlarmSlot) (x : Option Alarm) : (s.setAlarm a x).changes = s.changes := rfl
@[simp] theorem setAlarm_attentionMask (a : AlarmSlot) (x : Option Alarm) : (s.setAlarm a x).attentionMask = s.attentionMask := rfl
@[simp] theorem setAlarm_supplyRestarted (a : AlarmSlot) (x : Option Alarm) : (s.setAlarm a x).supplyRestarted = s.supplyRestarted := rfl
@[simp] theorem setAlarm_settingsDefaulted (a : AlarmSlot) (x : Option Alarm) : (s.setAlarm a x).settingsDefaulted = s.settingsDefaulted := rfl
@[simp] theorem setAlarm_commitFailed (a : AlarmSlot) (x : Option Alarm) : (s.setAlarm a x).commitFailed = s.commitFailed := rfl
@[simp] theorem setAlarm_settings (a : AlarmSlot) (x : Option Alarm) : (s.setAlarm a x).settings = s.settings := rfl
@[simp] theorem setAlarm_image (a : AlarmSlot) (x : Option Alarm) : (s.setAlarm a x).image = s.image := rfl
@[simp] theorem setAlarm_commit (a : AlarmSlot) (x : Option Alarm) : (s.setAlarm a x).commit = s.commit := rfl
@[simp] theorem setAlarm_power (a : AlarmSlot) (x : Option Alarm) : (s.setAlarm a x).power = s.power := rfl
@[simp] theorem setAlarm_supply (a : AlarmSlot) (x : Option Alarm) : (s.setAlarm a x).supply = s.supply := rfl
@[simp] theorem setAlarm_keyOn (a : AlarmSlot) (x : Option Alarm) : (s.setAlarm a x).keyOn = s.keyOn := rfl
@[simp] theorem setAlarm_pending (a : AlarmSlot) (x : Option Alarm) : (s.setAlarm a x).pending = s.pending := rfl

/-! ### claimUncertain -/

@[simp] theorem claimUncertain_permits (r : Room) : (s.claimUncertain r).permits = s.permits := rfl
@[simp] theorem claimUncertain_occupants (r : Room) : (s.claimUncertain r).occupants = s.occupants := rfl
@[simp] theorem claimUncertain_lists (r : Room) : (s.claimUncertain r).lists = s.lists := rfl
@[simp] theorem claimUncertain_uncertain (r : Room) : (s.claimUncertain r).uncertain = s.uncertain.set r true := rfl
@[simp] theorem claimUncertain_pairs (r : Room) : (s.claimUncertain r).pairs = s.pairs := rfl
@[simp] theorem claimUncertain_doors (r : Room) : (s.claimUncertain r).doors = s.doors := rfl
@[simp] theorem claimUncertain_stations (r : Room) : (s.claimUncertain r).stations = s.stations := rfl
@[simp] theorem claimUncertain_notes (r : Room) : (s.claimUncertain r).notes = s.notes := rfl
@[simp] theorem claimUncertain_loops (r : Room) : (s.claimUncertain r).loops = s.loops := rfl
@[simp] theorem claimUncertain_zones (r : Room) : (s.claimUncertain r).zones = s.zones := rfl
@[simp] theorem claimUncertain_alarms (r : Room) : (s.claimUncertain r).alarms = s.alarms := rfl
@[simp] theorem claimUncertain_overflow (r : Room) : (s.claimUncertain r).overflow = s.overflow := rfl
@[simp] theorem claimUncertain_lostCount (r : Room) : (s.claimUncertain r).lostCount = s.lostCount := rfl
@[simp] theorem claimUncertain_handedRaises (r : Room) : (s.claimUncertain r).handedRaises = s.handedRaises := rfl
@[simp] theorem claimUncertain_uptimeMs (r : Room) : (s.claimUncertain r).uptimeMs = s.uptimeMs := rfl
@[simp] theorem claimUncertain_wall (r : Room) : (s.claimUncertain r).wall = s.wall := rfl
@[simp] theorem claimUncertain_decision (r : Room) : (s.claimUncertain r).decision = s.decision := rfl
@[simp] theorem claimUncertain_reference (r : Room) : (s.claimUncertain r).reference = s.reference := rfl
@[simp] theorem claimUncertain_framer (r : Room) : (s.claimUncertain r).framer = s.framer := rfl
@[simp] theorem claimUncertain_changes (r : Room) : (s.claimUncertain r).changes = s.changes := rfl
@[simp] theorem claimUncertain_attentionMask (r : Room) : (s.claimUncertain r).attentionMask = s.attentionMask := rfl
@[simp] theorem claimUncertain_supplyRestarted (r : Room) : (s.claimUncertain r).supplyRestarted = s.supplyRestarted := rfl
@[simp] theorem claimUncertain_settingsDefaulted (r : Room) : (s.claimUncertain r).settingsDefaulted = s.settingsDefaulted := rfl
@[simp] theorem claimUncertain_commitFailed (r : Room) : (s.claimUncertain r).commitFailed = s.commitFailed := rfl
@[simp] theorem claimUncertain_settings (r : Room) : (s.claimUncertain r).settings = s.settings := rfl
@[simp] theorem claimUncertain_image (r : Room) : (s.claimUncertain r).image = s.image := rfl
@[simp] theorem claimUncertain_commit (r : Room) : (s.claimUncertain r).commit = s.commit := rfl
@[simp] theorem claimUncertain_power (r : Room) : (s.claimUncertain r).power = s.power := rfl
@[simp] theorem claimUncertain_supply (r : Room) : (s.claimUncertain r).supply = s.supply := rfl
@[simp] theorem claimUncertain_keyOn (r : Room) : (s.claimUncertain r).keyOn = s.keyOn := rfl
@[simp] theorem claimUncertain_pending (r : Room) : (s.claimUncertain r).pending = s.pending := rfl

/-! ### mark -/

@[simp] theorem mark_permits (i : Identity) : (s.mark i).permits = s.permits := rfl
@[simp] theorem mark_occupants (i : Identity) : (s.mark i).occupants = s.occupants := rfl
@[simp] theorem mark_lists (i : Identity) : (s.mark i).lists = s.lists := rfl
@[simp] theorem mark_uncertain (i : Identity) : (s.mark i).uncertain = s.uncertain := rfl
@[simp] theorem mark_pairs (i : Identity) : (s.mark i).pairs = s.pairs := rfl
@[simp] theorem mark_doors (i : Identity) : (s.mark i).doors = s.doors := rfl
@[simp] theorem mark_stations (i : Identity) : (s.mark i).stations = s.stations := rfl
@[simp] theorem mark_notes (i : Identity) : (s.mark i).notes = s.notes := rfl
@[simp] theorem mark_loops (i : Identity) : (s.mark i).loops = s.loops := rfl
@[simp] theorem mark_zones (i : Identity) : (s.mark i).zones = s.zones := rfl
@[simp] theorem mark_alarms (i : Identity) : (s.mark i).alarms = s.alarms := rfl
@[simp] theorem mark_overflow (i : Identity) : (s.mark i).overflow = s.overflow := rfl
@[simp] theorem mark_lostCount (i : Identity) : (s.mark i).lostCount = s.lostCount := rfl
@[simp] theorem mark_handedRaises (i : Identity) : (s.mark i).handedRaises = s.handedRaises := rfl
@[simp] theorem mark_uptimeMs (i : Identity) : (s.mark i).uptimeMs = s.uptimeMs := rfl
@[simp] theorem mark_wall (i : Identity) : (s.mark i).wall = s.wall := rfl
@[simp] theorem mark_decision (i : Identity) : (s.mark i).decision = s.decision := rfl
@[simp] theorem mark_reference (i : Identity) : (s.mark i).reference = s.reference := rfl
@[simp] theorem mark_framer (i : Identity) : (s.mark i).framer = s.framer := rfl
@[simp] theorem mark_changes (i : Identity) : (s.mark i).changes = s.changes.put true i := rfl
@[simp] theorem mark_attentionMask (i : Identity) : (s.mark i).attentionMask = s.attentionMask := rfl
@[simp] theorem mark_supplyRestarted (i : Identity) : (s.mark i).supplyRestarted = s.supplyRestarted := rfl
@[simp] theorem mark_settingsDefaulted (i : Identity) : (s.mark i).settingsDefaulted = s.settingsDefaulted := rfl
@[simp] theorem mark_commitFailed (i : Identity) : (s.mark i).commitFailed = s.commitFailed := rfl
@[simp] theorem mark_settings (i : Identity) : (s.mark i).settings = s.settings := rfl
@[simp] theorem mark_image (i : Identity) : (s.mark i).image = s.image := rfl
@[simp] theorem mark_commit (i : Identity) : (s.mark i).commit = s.commit := rfl
@[simp] theorem mark_power (i : Identity) : (s.mark i).power = s.power := rfl
@[simp] theorem mark_supply (i : Identity) : (s.mark i).supply = s.supply := rfl
@[simp] theorem mark_keyOn (i : Identity) : (s.mark i).keyOn = s.keyOn := rfl
@[simp] theorem mark_pending (i : Identity) : (s.mark i).pending = s.pending := rfl

/-! ### raise -/

@[simp] theorem raise_permits (k : AlarmKey) (p : Option PermitIx) : (s.raise k p).permits = s.permits := rfl
@[simp] theorem raise_occupants (k : AlarmKey) (p : Option PermitIx) : (s.raise k p).occupants = s.occupants := rfl
@[simp] theorem raise_lists (k : AlarmKey) (p : Option PermitIx) : (s.raise k p).lists = s.lists := rfl
@[simp] theorem raise_uncertain (k : AlarmKey) (p : Option PermitIx) : (s.raise k p).uncertain = s.uncertain := rfl
@[simp] theorem raise_pairs (k : AlarmKey) (p : Option PermitIx) : (s.raise k p).pairs = s.pairs := rfl
@[simp] theorem raise_doors (k : AlarmKey) (p : Option PermitIx) : (s.raise k p).doors = s.doors := rfl
@[simp] theorem raise_stations (k : AlarmKey) (p : Option PermitIx) : (s.raise k p).stations = s.stations := rfl
@[simp] theorem raise_notes (k : AlarmKey) (p : Option PermitIx) : (s.raise k p).notes = s.notes := rfl
@[simp] theorem raise_loops (k : AlarmKey) (p : Option PermitIx) : (s.raise k p).loops = s.loops := rfl
@[simp] theorem raise_zones (k : AlarmKey) (p : Option PermitIx) : (s.raise k p).zones = s.zones := rfl
@[simp] theorem raise_alarms (k : AlarmKey) (p : Option PermitIx) : (s.raise k p).alarms = s.alarms := rfl
@[simp] theorem raise_overflow (k : AlarmKey) (p : Option PermitIx) : (s.raise k p).overflow = s.overflow := rfl
@[simp] theorem raise_lostCount (k : AlarmKey) (p : Option PermitIx) : (s.raise k p).lostCount = s.lostCount := rfl
@[simp] theorem raise_handedRaises (k : AlarmKey) (p : Option PermitIx) : (s.raise k p).handedRaises = s.handedRaises ++ [⟨k, p⟩] := rfl
@[simp] theorem raise_uptimeMs (k : AlarmKey) (p : Option PermitIx) : (s.raise k p).uptimeMs = s.uptimeMs := rfl
@[simp] theorem raise_wall (k : AlarmKey) (p : Option PermitIx) : (s.raise k p).wall = s.wall := rfl
@[simp] theorem raise_decision (k : AlarmKey) (p : Option PermitIx) : (s.raise k p).decision = s.decision := rfl
@[simp] theorem raise_reference (k : AlarmKey) (p : Option PermitIx) : (s.raise k p).reference = s.reference := rfl
@[simp] theorem raise_framer (k : AlarmKey) (p : Option PermitIx) : (s.raise k p).framer = s.framer := rfl
@[simp] theorem raise_changes (k : AlarmKey) (p : Option PermitIx) : (s.raise k p).changes = s.changes := rfl
@[simp] theorem raise_attentionMask (k : AlarmKey) (p : Option PermitIx) : (s.raise k p).attentionMask = s.attentionMask := rfl
@[simp] theorem raise_supplyRestarted (k : AlarmKey) (p : Option PermitIx) : (s.raise k p).supplyRestarted = s.supplyRestarted := rfl
@[simp] theorem raise_settingsDefaulted (k : AlarmKey) (p : Option PermitIx) : (s.raise k p).settingsDefaulted = s.settingsDefaulted := rfl
@[simp] theorem raise_commitFailed (k : AlarmKey) (p : Option PermitIx) : (s.raise k p).commitFailed = s.commitFailed := rfl
@[simp] theorem raise_settings (k : AlarmKey) (p : Option PermitIx) : (s.raise k p).settings = s.settings := rfl
@[simp] theorem raise_image (k : AlarmKey) (p : Option PermitIx) : (s.raise k p).image = s.image := rfl
@[simp] theorem raise_commit (k : AlarmKey) (p : Option PermitIx) : (s.raise k p).commit = s.commit := rfl
@[simp] theorem raise_power (k : AlarmKey) (p : Option PermitIx) : (s.raise k p).power = s.power := rfl
@[simp] theorem raise_supply (k : AlarmKey) (p : Option PermitIx) : (s.raise k p).supply = s.supply := rfl
@[simp] theorem raise_keyOn (k : AlarmKey) (p : Option PermitIx) : (s.raise k p).keyOn = s.keyOn := rfl
@[simp] theorem raise_pending (k : AlarmKey) (p : Option PermitIx) : (s.raise k p).pending = s.pending := rfl

/-! ### endCause -/

@[simp] theorem endCause_permits (k : AlarmKey) : (s.endCause k).permits = s.permits := rfl
@[simp] theorem endCause_occupants (k : AlarmKey) : (s.endCause k).occupants = s.occupants := rfl
@[simp] theorem endCause_lists (k : AlarmKey) : (s.endCause k).lists = s.lists := rfl
@[simp] theorem endCause_uncertain (k : AlarmKey) : (s.endCause k).uncertain = s.uncertain := rfl
@[simp] theorem endCause_pairs (k : AlarmKey) : (s.endCause k).pairs = s.pairs := rfl
@[simp] theorem endCause_doors (k : AlarmKey) : (s.endCause k).doors = s.doors := rfl
@[simp] theorem endCause_stations (k : AlarmKey) : (s.endCause k).stations = s.stations := rfl
@[simp] theorem endCause_notes (k : AlarmKey) : (s.endCause k).notes = s.notes := rfl
@[simp] theorem endCause_loops (k : AlarmKey) : (s.endCause k).loops = s.loops := rfl
@[simp] theorem endCause_zones (k : AlarmKey) : (s.endCause k).zones = s.zones := rfl
@[simp] theorem endCause_alarms (k : AlarmKey) : (s.endCause k).alarms = s.alarms.map fun x => x.map fun a => if a.key = k then a.endCause else a := rfl
@[simp] theorem endCause_overflow (k : AlarmKey) : (s.endCause k).overflow = s.overflow := rfl
@[simp] theorem endCause_lostCount (k : AlarmKey) : (s.endCause k).lostCount = s.lostCount := rfl
@[simp] theorem endCause_handedRaises (k : AlarmKey) : (s.endCause k).handedRaises = s.handedRaises := rfl
@[simp] theorem endCause_uptimeMs (k : AlarmKey) : (s.endCause k).uptimeMs = s.uptimeMs := rfl
@[simp] theorem endCause_wall (k : AlarmKey) : (s.endCause k).wall = s.wall := rfl
@[simp] theorem endCause_decision (k : AlarmKey) : (s.endCause k).decision = s.decision := rfl
@[simp] theorem endCause_reference (k : AlarmKey) : (s.endCause k).reference = s.reference := rfl
@[simp] theorem endCause_framer (k : AlarmKey) : (s.endCause k).framer = s.framer := rfl
@[simp] theorem endCause_changes (k : AlarmKey) : (s.endCause k).changes = s.changes := rfl
@[simp] theorem endCause_attentionMask (k : AlarmKey) : (s.endCause k).attentionMask = s.attentionMask := rfl
@[simp] theorem endCause_supplyRestarted (k : AlarmKey) : (s.endCause k).supplyRestarted = s.supplyRestarted := rfl
@[simp] theorem endCause_settingsDefaulted (k : AlarmKey) : (s.endCause k).settingsDefaulted = s.settingsDefaulted := rfl
@[simp] theorem endCause_commitFailed (k : AlarmKey) : (s.endCause k).commitFailed = s.commitFailed := rfl
@[simp] theorem endCause_settings (k : AlarmKey) : (s.endCause k).settings = s.settings := rfl
@[simp] theorem endCause_image (k : AlarmKey) : (s.endCause k).image = s.image := rfl
@[simp] theorem endCause_commit (k : AlarmKey) : (s.endCause k).commit = s.commit := rfl
@[simp] theorem endCause_power (k : AlarmKey) : (s.endCause k).power = s.power := rfl
@[simp] theorem endCause_supply (k : AlarmKey) : (s.endCause k).supply = s.supply := rfl
@[simp] theorem endCause_keyOn (k : AlarmKey) : (s.endCause k).keyOn = s.keyOn := rfl
@[simp] theorem endCause_pending (k : AlarmKey) : (s.endCause k).pending = s.pending := rfl

/-! ### answering -/

@[simp] theorem answering_permits (a : Answer) : (s.answering a).permits = s.permits := rfl
@[simp] theorem answering_occupants (a : Answer) : (s.answering a).occupants = s.occupants := rfl
@[simp] theorem answering_lists (a : Answer) : (s.answering a).lists = s.lists := rfl
@[simp] theorem answering_uncertain (a : Answer) : (s.answering a).uncertain = s.uncertain := rfl
@[simp] theorem answering_pairs (a : Answer) : (s.answering a).pairs = s.pairs := rfl
@[simp] theorem answering_doors (a : Answer) : (s.answering a).doors = s.doors := rfl
@[simp] theorem answering_stations (a : Answer) : (s.answering a).stations = s.stations := rfl
@[simp] theorem answering_notes (a : Answer) : (s.answering a).notes = s.notes := rfl
@[simp] theorem answering_loops (a : Answer) : (s.answering a).loops = s.loops := rfl
@[simp] theorem answering_zones (a : Answer) : (s.answering a).zones = s.zones := rfl
@[simp] theorem answering_alarms (a : Answer) : (s.answering a).alarms = s.alarms := rfl
@[simp] theorem answering_overflow (a : Answer) : (s.answering a).overflow = s.overflow := rfl
@[simp] theorem answering_lostCount (a : Answer) : (s.answering a).lostCount = s.lostCount := rfl
@[simp] theorem answering_handedRaises (a : Answer) : (s.answering a).handedRaises = s.handedRaises := rfl
@[simp] theorem answering_uptimeMs (a : Answer) : (s.answering a).uptimeMs = s.uptimeMs := rfl
@[simp] theorem answering_wall (a : Answer) : (s.answering a).wall = s.wall := rfl
@[simp] theorem answering_decision (a : Answer) : (s.answering a).decision = s.decision := rfl
@[simp] theorem answering_reference (a : Answer) : (s.answering a).reference = s.reference := rfl
@[simp] theorem answering_framer (a : Answer) : (s.answering a).framer = { step := .answering, answer := some a } := rfl
@[simp] theorem answering_changes (a : Answer) : (s.answering a).changes = s.changes := rfl
@[simp] theorem answering_attentionMask (a : Answer) : (s.answering a).attentionMask = s.attentionMask := rfl
@[simp] theorem answering_supplyRestarted (a : Answer) : (s.answering a).supplyRestarted = s.supplyRestarted := rfl
@[simp] theorem answering_settingsDefaulted (a : Answer) : (s.answering a).settingsDefaulted = s.settingsDefaulted := rfl
@[simp] theorem answering_commitFailed (a : Answer) : (s.answering a).commitFailed = s.commitFailed := rfl
@[simp] theorem answering_settings (a : Answer) : (s.answering a).settings = s.settings := rfl
@[simp] theorem answering_image (a : Answer) : (s.answering a).image = s.image := rfl
@[simp] theorem answering_commit (a : Answer) : (s.answering a).commit = s.commit := rfl
@[simp] theorem answering_power (a : Answer) : (s.answering a).power = s.power := rfl
@[simp] theorem answering_supply (a : Answer) : (s.answering a).supply = s.supply := rfl
@[simp] theorem answering_keyOn (a : Answer) : (s.answering a).keyOn = s.keyOn := rfl
@[simp] theorem answering_pending (a : Answer) : (s.answering a).pending = s.pending := rfl

/-! ### decideHours -/

@[simp] theorem decideHours_permits : s.decideHours.permits = s.permits := rfl
@[simp] theorem decideHours_occupants : s.decideHours.occupants = s.occupants := rfl
@[simp] theorem decideHours_lists : s.decideHours.lists = s.lists := rfl
@[simp] theorem decideHours_uncertain : s.decideHours.uncertain = s.uncertain := rfl
@[simp] theorem decideHours_pairs : s.decideHours.pairs = s.pairs := rfl
@[simp] theorem decideHours_doors : s.decideHours.doors = s.doors := rfl
@[simp] theorem decideHours_stations : s.decideHours.stations = s.stations := rfl
@[simp] theorem decideHours_notes : s.decideHours.notes = s.notes := rfl
@[simp] theorem decideHours_loops : s.decideHours.loops = s.loops := rfl
@[simp] theorem decideHours_zones : s.decideHours.zones = s.zones := rfl
@[simp] theorem decideHours_alarms : s.decideHours.alarms = s.alarms := rfl
@[simp] theorem decideHours_overflow : s.decideHours.overflow = s.overflow := rfl
@[simp] theorem decideHours_lostCount : s.decideHours.lostCount = s.lostCount := rfl
@[simp] theorem decideHours_handedRaises : s.decideHours.handedRaises = s.handedRaises := rfl
@[simp] theorem decideHours_uptimeMs : s.decideHours.uptimeMs = s.uptimeMs := rfl
@[simp] theorem decideHours_wall : s.decideHours.wall = s.wall := rfl
@[simp] theorem decideHours_decision : s.decideHours.decision = s.hoursNow := rfl
@[simp] theorem decideHours_reference : s.decideHours.reference = s.reference := rfl
@[simp] theorem decideHours_framer : s.decideHours.framer = s.framer := rfl
@[simp] theorem decideHours_changes : s.decideHours.changes = s.changes := rfl
@[simp] theorem decideHours_attentionMask : s.decideHours.attentionMask = s.attentionMask := rfl
@[simp] theorem decideHours_supplyRestarted : s.decideHours.supplyRestarted = s.supplyRestarted := rfl
@[simp] theorem decideHours_settingsDefaulted : s.decideHours.settingsDefaulted = s.settingsDefaulted := rfl
@[simp] theorem decideHours_commitFailed : s.decideHours.commitFailed = s.commitFailed := rfl
@[simp] theorem decideHours_settings : s.decideHours.settings = s.settings := rfl
@[simp] theorem decideHours_image : s.decideHours.image = s.image := rfl
@[simp] theorem decideHours_commit : s.decideHours.commit = s.commit := rfl
@[simp] theorem decideHours_power : s.decideHours.power = s.power := rfl
@[simp] theorem decideHours_supply : s.decideHours.supply = s.supply := rfl
@[simp] theorem decideHours_keyOn : s.decideHours.keyOn = s.keyOn := rfl
@[simp] theorem decideHours_pending : s.decideHours.pending = s.pending := rfl

/-! ### dropPairsOf -/

@[simp] theorem dropPairsOf_permits (p : PermitIx) : (s.dropPairsOf p).permits = s.permits := rfl
@[simp] theorem dropPairsOf_occupants (p : PermitIx) : (s.dropPairsOf p).occupants = s.occupants := rfl
@[simp] theorem dropPairsOf_lists (p : PermitIx) : (s.dropPairsOf p).lists = s.lists := rfl
@[simp] theorem dropPairsOf_uncertain (p : PermitIx) : (s.dropPairsOf p).uncertain = s.uncertain := rfl
@[simp] theorem dropPairsOf_pairs (p : PermitIx) : (s.dropPairsOf p).pairs = s.pairs.map fun x => x.filter fun q => decide (q.permit ≠ p) := rfl
@[simp] theorem dropPairsOf_doors (p : PermitIx) : (s.dropPairsOf p).doors = s.doors := rfl
@[simp] theorem dropPairsOf_stations (p : PermitIx) : (s.dropPairsOf p).stations = s.stations := rfl
@[simp] theorem dropPairsOf_notes (p : PermitIx) : (s.dropPairsOf p).notes = s.notes := rfl
@[simp] theorem dropPairsOf_loops (p : PermitIx) : (s.dropPairsOf p).loops = s.loops := rfl
@[simp] theorem dropPairsOf_zones (p : PermitIx) : (s.dropPairsOf p).zones = s.zones := rfl
@[simp] theorem dropPairsOf_alarms (p : PermitIx) : (s.dropPairsOf p).alarms = s.alarms := rfl
@[simp] theorem dropPairsOf_overflow (p : PermitIx) : (s.dropPairsOf p).overflow = s.overflow := rfl
@[simp] theorem dropPairsOf_lostCount (p : PermitIx) : (s.dropPairsOf p).lostCount = s.lostCount := rfl
@[simp] theorem dropPairsOf_handedRaises (p : PermitIx) : (s.dropPairsOf p).handedRaises = s.handedRaises := rfl
@[simp] theorem dropPairsOf_uptimeMs (p : PermitIx) : (s.dropPairsOf p).uptimeMs = s.uptimeMs := rfl
@[simp] theorem dropPairsOf_wall (p : PermitIx) : (s.dropPairsOf p).wall = s.wall := rfl
@[simp] theorem dropPairsOf_decision (p : PermitIx) : (s.dropPairsOf p).decision = s.decision := rfl
@[simp] theorem dropPairsOf_reference (p : PermitIx) : (s.dropPairsOf p).reference = s.reference := rfl
@[simp] theorem dropPairsOf_framer (p : PermitIx) : (s.dropPairsOf p).framer = s.framer := rfl
@[simp] theorem dropPairsOf_changes (p : PermitIx) : (s.dropPairsOf p).changes = s.changes := rfl
@[simp] theorem dropPairsOf_attentionMask (p : PermitIx) : (s.dropPairsOf p).attentionMask = s.attentionMask := rfl
@[simp] theorem dropPairsOf_supplyRestarted (p : PermitIx) : (s.dropPairsOf p).supplyRestarted = s.supplyRestarted := rfl
@[simp] theorem dropPairsOf_settingsDefaulted (p : PermitIx) : (s.dropPairsOf p).settingsDefaulted = s.settingsDefaulted := rfl
@[simp] theorem dropPairsOf_commitFailed (p : PermitIx) : (s.dropPairsOf p).commitFailed = s.commitFailed := rfl
@[simp] theorem dropPairsOf_settings (p : PermitIx) : (s.dropPairsOf p).settings = s.settings := rfl
@[simp] theorem dropPairsOf_image (p : PermitIx) : (s.dropPairsOf p).image = s.image := rfl
@[simp] theorem dropPairsOf_commit (p : PermitIx) : (s.dropPairsOf p).commit = s.commit := rfl
@[simp] theorem dropPairsOf_power (p : PermitIx) : (s.dropPairsOf p).power = s.power := rfl
@[simp] theorem dropPairsOf_supply (p : PermitIx) : (s.dropPairsOf p).supply = s.supply := rfl
@[simp] theorem dropPairsOf_keyOn (p : PermitIx) : (s.dropPairsOf p).keyOn = s.keyOn := rfl
@[simp] theorem dropPairsOf_pending (p : PermitIx) : (s.dropPairsOf p).pending = s.pending := rfl

/-! ### toStep -/

@[simp] theorem toStep_permits (w : WindowStep) : (s.toStep w).permits = s.permits := rfl
@[simp] theorem toStep_occupants (w : WindowStep) : (s.toStep w).occupants = s.occupants := rfl
@[simp] theorem toStep_lists (w : WindowStep) : (s.toStep w).lists = s.lists := rfl
@[simp] theorem toStep_uncertain (w : WindowStep) : (s.toStep w).uncertain = s.uncertain := rfl
@[simp] theorem toStep_pairs (w : WindowStep) : (s.toStep w).pairs = s.pairs := rfl
@[simp] theorem toStep_doors (w : WindowStep) : (s.toStep w).doors = s.doors := rfl
@[simp] theorem toStep_stations (w : WindowStep) : (s.toStep w).stations = s.stations := rfl
@[simp] theorem toStep_notes (w : WindowStep) : (s.toStep w).notes = s.notes := rfl
@[simp] theorem toStep_loops (w : WindowStep) : (s.toStep w).loops = s.loops := rfl
@[simp] theorem toStep_zones (w : WindowStep) : (s.toStep w).zones = s.zones := rfl
@[simp] theorem toStep_alarms (w : WindowStep) : (s.toStep w).alarms = s.alarms := rfl
@[simp] theorem toStep_overflow (w : WindowStep) : (s.toStep w).overflow = s.overflow := rfl
@[simp] theorem toStep_lostCount (w : WindowStep) : (s.toStep w).lostCount = s.lostCount := rfl
@[simp] theorem toStep_handedRaises (w : WindowStep) : (s.toStep w).handedRaises = s.handedRaises := rfl
@[simp] theorem toStep_uptimeMs (w : WindowStep) : (s.toStep w).uptimeMs = s.uptimeMs := rfl
@[simp] theorem toStep_wall (w : WindowStep) : (s.toStep w).wall = s.wall := rfl
@[simp] theorem toStep_decision (w : WindowStep) : (s.toStep w).decision = s.decision := rfl
@[simp] theorem toStep_reference (w : WindowStep) : (s.toStep w).reference = s.reference := rfl
@[simp] theorem toStep_framer (w : WindowStep) : (s.toStep w).framer = { step := w, answer := none } := rfl
@[simp] theorem toStep_changes (w : WindowStep) : (s.toStep w).changes = s.changes := rfl
@[simp] theorem toStep_attentionMask (w : WindowStep) : (s.toStep w).attentionMask = s.attentionMask := rfl
@[simp] theorem toStep_supplyRestarted (w : WindowStep) : (s.toStep w).supplyRestarted = s.supplyRestarted := rfl
@[simp] theorem toStep_settingsDefaulted (w : WindowStep) : (s.toStep w).settingsDefaulted = s.settingsDefaulted := rfl
@[simp] theorem toStep_commitFailed (w : WindowStep) : (s.toStep w).commitFailed = s.commitFailed := rfl
@[simp] theorem toStep_settings (w : WindowStep) : (s.toStep w).settings = s.settings := rfl
@[simp] theorem toStep_image (w : WindowStep) : (s.toStep w).image = s.image := rfl
@[simp] theorem toStep_commit (w : WindowStep) : (s.toStep w).commit = s.commit := rfl
@[simp] theorem toStep_power (w : WindowStep) : (s.toStep w).power = s.power := rfl
@[simp] theorem toStep_supply (w : WindowStep) : (s.toStep w).supply = s.supply := rfl
@[simp] theorem toStep_keyOn (w : WindowStep) : (s.toStep w).keyOn = s.keyOn := rfl
@[simp] theorem toStep_pending (w : WindowStep) : (s.toStep w).pending = s.pending := rfl

/-! ### The last two passes of an event -/

@[simp] theorem markPass_permits (old s : State) : (State.markPass old s).permits = s.permits := rfl
@[simp] theorem markPass_occupants (old s : State) : (State.markPass old s).occupants = s.occupants := rfl
@[simp] theorem markPass_lists (old s : State) : (State.markPass old s).lists = s.lists := rfl
@[simp] theorem markPass_uncertain (old s : State) : (State.markPass old s).uncertain = s.uncertain := rfl
@[simp] theorem markPass_pairs (old s : State) : (State.markPass old s).pairs = s.pairs := rfl
@[simp] theorem markPass_doors (old s : State) : (State.markPass old s).doors = s.doors := rfl
@[simp] theorem markPass_stations (old s : State) : (State.markPass old s).stations = s.stations := rfl
@[simp] theorem markPass_notes (old s : State) : (State.markPass old s).notes = s.notes := rfl
@[simp] theorem markPass_loops (old s : State) : (State.markPass old s).loops = s.loops := rfl
@[simp] theorem markPass_zones (old s : State) : (State.markPass old s).zones = s.zones := rfl
@[simp] theorem markPass_alarms (old s : State) : (State.markPass old s).alarms = s.alarms := rfl
@[simp] theorem markPass_overflow (old s : State) : (State.markPass old s).overflow = s.overflow := rfl
@[simp] theorem markPass_lostCount (old s : State) : (State.markPass old s).lostCount = s.lostCount := rfl
@[simp] theorem markPass_handedRaises (old s : State) : (State.markPass old s).handedRaises = s.handedRaises := rfl
@[simp] theorem markPass_uptimeMs (old s : State) : (State.markPass old s).uptimeMs = s.uptimeMs := rfl
@[simp] theorem markPass_wall (old s : State) : (State.markPass old s).wall = s.wall := rfl
@[simp] theorem markPass_decision (old s : State) : (State.markPass old s).decision = s.decision := rfl
@[simp] theorem markPass_reference (old s : State) : (State.markPass old s).reference = s.reference := rfl
@[simp] theorem markPass_framer (old s : State) : (State.markPass old s).framer = s.framer := rfl
@[simp] theorem markPass_attentionMask (old s : State) : (State.markPass old s).attentionMask = s.attentionMask := rfl
@[simp] theorem markPass_supplyRestarted (old s : State) : (State.markPass old s).supplyRestarted = s.supplyRestarted := rfl
@[simp] theorem markPass_settingsDefaulted (old s : State) : (State.markPass old s).settingsDefaulted = s.settingsDefaulted := rfl
@[simp] theorem markPass_commitFailed (old s : State) : (State.markPass old s).commitFailed = s.commitFailed := rfl
@[simp] theorem markPass_settings (old s : State) : (State.markPass old s).settings = s.settings := rfl
@[simp] theorem markPass_image (old s : State) : (State.markPass old s).image = s.image := rfl
@[simp] theorem markPass_commit (old s : State) : (State.markPass old s).commit = s.commit := rfl
@[simp] theorem markPass_power (old s : State) : (State.markPass old s).power = s.power := rfl
@[simp] theorem markPass_supply (old s : State) : (State.markPass old s).supply = s.supply := rfl
@[simp] theorem markPass_keyOn (old s : State) : (State.markPass old s).keyOn = s.keyOn := rfl
@[simp] theorem markPass_pending (old s : State) : (State.markPass old s).pending = s.pending := rfl
@[simp] theorem watchPass_permits (old s : State) : (State.watchPass old s).permits = s.permits := rfl
@[simp] theorem watchPass_lists (old s : State) : (State.watchPass old s).lists = s.lists := rfl
@[simp] theorem watchPass_uncertain (old s : State) : (State.watchPass old s).uncertain = s.uncertain := rfl
@[simp] theorem watchPass_pairs (old s : State) : (State.watchPass old s).pairs = s.pairs := rfl
@[simp] theorem watchPass_doors (old s : State) : (State.watchPass old s).doors = s.doors := rfl
@[simp] theorem watchPass_stations (old s : State) : (State.watchPass old s).stations = s.stations := rfl
@[simp] theorem watchPass_notes (old s : State) : (State.watchPass old s).notes = s.notes := rfl
@[simp] theorem watchPass_loops (old s : State) : (State.watchPass old s).loops = s.loops := rfl
@[simp] theorem watchPass_zones (old s : State) : (State.watchPass old s).zones = s.zones := rfl
@[simp] theorem watchPass_alarms (old s : State) : (State.watchPass old s).alarms = s.alarms := rfl
@[simp] theorem watchPass_overflow (old s : State) : (State.watchPass old s).overflow = s.overflow := rfl
@[simp] theorem watchPass_lostCount (old s : State) : (State.watchPass old s).lostCount = s.lostCount := rfl
@[simp] theorem watchPass_handedRaises (old s : State) : (State.watchPass old s).handedRaises = s.handedRaises := rfl
@[simp] theorem watchPass_uptimeMs (old s : State) : (State.watchPass old s).uptimeMs = s.uptimeMs := rfl
@[simp] theorem watchPass_wall (old s : State) : (State.watchPass old s).wall = s.wall := rfl
@[simp] theorem watchPass_decision (old s : State) : (State.watchPass old s).decision = s.decision := rfl
@[simp] theorem watchPass_reference (old s : State) : (State.watchPass old s).reference = s.reference := rfl
@[simp] theorem watchPass_framer (old s : State) : (State.watchPass old s).framer = s.framer := rfl
@[simp] theorem watchPass_changes (old s : State) : (State.watchPass old s).changes = s.changes := rfl
@[simp] theorem watchPass_attentionMask (old s : State) : (State.watchPass old s).attentionMask = s.attentionMask := rfl
@[simp] theorem watchPass_supplyRestarted (old s : State) : (State.watchPass old s).supplyRestarted = s.supplyRestarted := rfl
@[simp] theorem watchPass_settingsDefaulted (old s : State) : (State.watchPass old s).settingsDefaulted = s.settingsDefaulted := rfl
@[simp] theorem watchPass_commitFailed (old s : State) : (State.watchPass old s).commitFailed = s.commitFailed := rfl
@[simp] theorem watchPass_settings (old s : State) : (State.watchPass old s).settings = s.settings := rfl
@[simp] theorem watchPass_image (old s : State) : (State.watchPass old s).image = s.image := rfl
@[simp] theorem watchPass_commit (old s : State) : (State.watchPass old s).commit = s.commit := rfl
@[simp] theorem watchPass_power (old s : State) : (State.watchPass old s).power = s.power := rfl
@[simp] theorem watchPass_supply (old s : State) : (State.watchPass old s).supply = s.supply := rfl
@[simp] theorem watchPass_keyOn (old s : State) : (State.watchPass old s).keyOn = s.keyOn := rfl
@[simp] theorem watchPass_pending (old s : State) : (State.watchPass old s).pending = s.pending := rfl

end Sys2Proof.Machine
end

