-- ==== Sys2Proof/Laws/Event.lean ====
section
/-! SUPPORT. What the end of an event (`finish`) can change: alarms, the watches of records, the hold of zones in HELD,
the raises handed, and marks. Everything else it leaves as it was (`finish_frame`), and each field has its law. -/

namespace Sys2Proof.Machine

/-! ### The part of a state that `finish` leaves alone -/

/-- A zone record with what a change of hold reasons may change taken out. -/
def Zone.steady (x : Zone) : Zone :=
  { x with
    state := .normal
    holdReasons := .empty
    countdown := none
    heldFor := 0
    trappedRaised := false
    countsDue := 0 }

/-- A state with all that `finish` may change taken out. -/
def State.steady (s : State) : State :=
  { s with
    occupants := s.occupants.map fun x => x.map Occupant.unwatched
    zones := s.zones.map Zone.steady
    alarms := Table.replicate 24 none
    overflow := false
    lostCount := 0
    handedRaises := []
    changes := ChangeSet.full }

/-- A fold whose every step leaves a view alone leaves it alone. -/
theorem foldl_view {α β : Type} {view : State → β} {f : State → α → State}
    (h : ∀ s a, view (f s a) = view s) (l : List α) (s : State) : view (l.foldl f s) = view s := by
  induction l generalizing s with
  | nil => rfl
  | cons a l ih => exact (ih (f s a)).trans (h s a)

theorem steady_setAlarm (s : State) (i : AlarmSlot) (x : Option Alarm) : (s.setAlarm i x).steady = s.steady := rfl

theorem steady_endCause (s : State) (k : AlarmKey) : (s.endCause k).steady = s.steady := rfl

theorem steady_raise (s : State) (k : AlarmKey) (p : Option PermitIx) : (s.raise k p).steady = s.steady := rfl

theorem steady_loseRaise (s : State) : s.loseRaise.steady = s.steady := rfl

/-- A zone record replaced by one that differs in its hold only. -/
theorem steady_setZone (s : State) (z : Room) (x : Zone) (h : x.steady = (s.zone z).steady) :
    (s.setZone z x).steady = s.steady := by
  have e : (s.zones.set z x).map Zone.steady = s.zones.map Zone.steady := by
    rw [Table.map_set, h]
    exact (congrArg ((s.zones.map Zone.steady).set z) (Table.get_map Zone.steady s.zones z).symm).trans
      (Table.set_get _ _)
  simp only [State.steady, setZone_zones, e]
  rfl

/-- An occupant record replaced by one that differs in its watch only. -/
theorem steady_setOccupant (s : State) (o : Slot) (x : Option Occupant)
    (h : x.map Occupant.unwatched = (s.occupant o).map Occupant.unwatched) : (s.setOccupant o x).steady = s.steady := by
  have e : (s.occupants.set o x).map (fun y => y.map Occupant.unwatched)
      = s.occupants.map fun y => y.map Occupant.unwatched := by
    rw [Table.map_set, h]
    exact (congrArg ((s.occupants.map _).set o)
      (Table.get_map (fun y : Option Occupant => y.map Occupant.unwatched) s.occupants o).symm).trans
      (Table.set_get _ _)
  simp only [State.steady, setOccupant_occupants, e]
  rfl

theorem steady_setWatch (s : State) (o : Slot) (w : Option Watch) : (s.setWatch o w).steady = s.steady := by
  unfold State.setWatch
  split
  · rfl
  · next x hx =>
    apply steady_setOccupant
    rw [hx]
    rfl

theorem steady_endOfAlarm (s : State) (o : Slot) : (s.endOfAlarm o).steady = s.steady := by
  unfold State.endOfAlarm
  split
  · rfl
  · next x hx =>
    split
    · rfl
    · split
      · apply steady_setOccupant
        rw [hx]
        rfl
      · rfl

theorem steady_alarmRemoved (s : State) (a : Alarm) : (s.alarmRemoved a).steady = s.steady := by
  unfold State.alarmRemoved
  split
  · exact steady_endOfAlarm _ _
  · rfl

theorem steady_replaceOrLose (s : State) (r : AlarmRaise) : (s.replaceOrLose r).1.steady = s.steady := by
  unfold State.replaceOrLose
  split
  · rfl
  · split
    · rfl
    · exact steady_alarmRemoved _ _

theorem steady_takeRaise (s : State) (r : AlarmRaise) : (s.takeRaise r).1.steady = s.steady := by
  unfold State.takeRaise
  split
  · rfl
  · split
    · rfl
    · exact steady_replaceOrLose _ _

theorem steady_takeRaises (s : State) : s.takeRaises.steady = s.steady := by
  unfold State.takeRaises
  exact foldl_view (view := State.steady) (fun t r => steady_takeRaise t r) _ _

theorem steady_holdZone (old s : State) (z : Room) : (State.holdZone old s z).steady = s.steady := by
  unfold State.holdZone
  split
  · dsimp only
    split
    · rfl
    · split
      · rw [steady_endCause]
        exact steady_setZone s z _ rfl
      · exact steady_setZone s z _ rfl
  · rfl

theorem steady_holdPass (old s : State) : (State.holdPass old s).steady = s.steady :=
  foldl_view (view := State.steady) (fun t z => steady_holdZone old t z) _ _

theorem steady_unescortedRoom (b : Room → Bool) (s : State) (r : Room) :
    (State.unescortedRoom b s r).steady = s.steady := by
  unfold State.unescortedRoom
  split <;> rfl

theorem steady_unescortedPass (old s : State) : (State.unescortedPass old s).steady = s.steady := by
  unfold State.unescortedPass
  split
  · rfl
  · exact foldl_view (view := State.steady) (fun t r => steady_unescortedRoom _ t r) _ _

theorem steady_watchPass (old s : State) : (State.watchPass old s).steady = s.steady := by
  have e : (State.watchPass old s).occupants.map (fun x => x.map Occupant.unwatched)
      = s.occupants.map fun x => x.map Occupant.unwatched := by
    apply Table.ext_get
    intro i
    simp only [State.watchPass, Table.get_map, Option.map_map]
    congr 1
    funext o
    simp only [Function.comp]
    split <;> rfl
  simp only [State.steady, e]
  rfl

theorem steady_markPass (old s : State) : (State.markPass old s).steady = s.steady := rfl

/-- `finish` changes nothing but alarms, watches, the hold of zones, handed raises and marks. -/
theorem finish_frame (old s : State) : (State.finish old s).steady = s.steady := by
  unfold State.finish
  rw [steady_markPass, steady_watchPass, steady_takeRaises, steady_unescortedPass, steady_holdPass]

/-! ### The law of each field that `finish` leaves alone -/

section
variable {a b : State}

theorem permits_of_steady (h : a.steady = b.steady) : a.permits = b.permits :=
  show a.steady.permits = b.steady.permits from h ▸ rfl
theorem lists_of_steady (h : a.steady = b.steady) : a.lists = b.lists :=
  show a.steady.lists = b.steady.lists from h ▸ rfl
theorem uncertain_of_steady (h : a.steady = b.steady) : a.uncertain = b.uncertain :=
  show a.steady.uncertain = b.steady.uncertain from h ▸ rfl
theorem pairs_of_steady (h : a.steady = b.steady) : a.pairs = b.pairs :=
  show a.steady.pairs = b.steady.pairs from h ▸ rfl
theorem doors_of_steady (h : a.steady = b.steady) : a.doors = b.doors :=
  show a.steady.doors = b.steady.doors from h ▸ rfl
theorem stations_of_steady (h : a.steady = b.steady) : a.stations = b.stations :=
  show a.steady.stations = b.steady.stations from h ▸ rfl
theorem notes_of_steady (h : a.steady = b.steady) : a.notes = b.notes :=
  show a.steady.notes = b.steady.notes from h ▸ rfl
theorem loops_of_steady (h : a.steady = b.steady) : a.loops = b.loops :=
  show a.steady.loops = b.steady.loops from h ▸ rfl
theorem uptimeMs_of_steady (h : a.steady = b.steady) : a.uptimeMs = b.uptimeMs :=
  show a.steady.uptimeMs = b.steady.uptimeMs from h ▸ rfl
theorem wall_of_steady (h : a.steady = b.steady) : a.wall = b.wall :=
  show a.steady.wall = b.steady.wall from h ▸ rfl
theorem decision_of_steady (h : a.steady = b.steady) : a.decision = b.decision :=
  show a.steady.decision = b.steady.decision from h ▸ rfl
theorem reference_of_steady (h : a.steady = b.steady) : a.reference = b.reference :=
  show a.steady.reference = b.steady.reference from h ▸ rfl
theorem framer_of_steady (h : a.steady = b.steady) : a.framer = b.framer :=
  show a.steady.framer = b.steady.framer from h ▸ rfl
theorem attentionMask_of_steady (h : a.steady = b.steady) : a.attentionMask = b.attentionMask :=
  show a.steady.attentionMask = b.steady.attentionMask from h ▸ rfl
theorem supplyRestarted_of_steady (h : a.steady = b.steady) : a.supplyRestarted = b.supplyRestarted :=
  show a.steady.supplyRestarted = b.steady.supplyRestarted from h ▸ rfl
theorem settingsDefaulted_of_steady (h : a.steady = b.steady) : a.settingsDefaulted = b.settingsDefaulted :=
  show a.steady.settingsDefaulted = b.steady.settingsDefaulted from h ▸ rfl
theorem commitFailed_of_steady (h : a.steady = b.steady) : a.commitFailed = b.commitFailed :=
  show a.steady.commitFailed = b.steady.commitFailed from h ▸ rfl
theorem settings_of_steady (h : a.steady = b.steady) : a.settings = b.settings :=
  show a.steady.settings = b.steady.settings from h ▸ rfl
theorem image_of_steady (h : a.steady = b.steady) : a.image = b.image :=
  show a.steady.image = b.steady.image from h ▸ rfl
theorem commit_of_steady (h : a.steady = b.steady) : a.commit = b.commit :=
  show a.steady.commit = b.steady.commit from h ▸ rfl
theorem power_of_steady (h : a.steady = b.steady) : a.power = b.power :=
  show a.steady.power = b.steady.power from h ▸ rfl
theorem supply_of_steady (h : a.steady = b.steady) : a.supply = b.supply :=
  show a.steady.supply = b.steady.supply from h ▸ rfl
theorem keyOn_of_steady (h : a.steady = b.steady) : a.keyOn = b.keyOn :=
  show a.steady.keyOn = b.steady.keyOn from h ▸ rfl
theorem pending_of_steady (h : a.steady = b.steady) : a.pending = b.pending :=
  show a.steady.pending = b.steady.pending from h ▸ rfl

theorem occupant_of_steady (h : a.steady = b.steady) (o : Slot) :
    (a.occupant o).map Occupant.unwatched = (b.occupant o).map Occupant.unwatched := by
  have e := congrArg (fun t : State => t.occupants.get o) h
  simpa only [State.steady, State.occupant, Table.get_map] using e

theorem zone_of_steady (h : a.steady = b.steady) (z : Room) : (a.zone z).steady = (b.zone z).steady := by
  have e := congrArg (fun t : State => t.zones.get z) h
  simpa only [State.steady, State.zone, Table.get_map] using e

end

section
variable (old s : State)

@[simp] theorem finish_permits : (State.finish old s).permits = s.permits := permits_of_steady (finish_frame old s)
@[simp] theorem finish_lists : (State.finish old s).lists = s.lists := lists_of_steady (finish_frame old s)
@[simp] theorem finish_uncertain : (State.finish old s).uncertain = s.uncertain :=
  uncertain_of_steady (finish_frame old s)
@[simp] theorem finish_pairs : (State.finish old s).pairs = s.pairs := pairs_of_steady (finish_frame old s)
@[simp] theorem finish_doors : (State.finish old s).doors = s.doors := doors_of_steady (finish_frame old s)
@[simp] theorem finish_stations : (State.finish old s).stations = s.stations := stations_of_steady (finish_frame old s)
@[simp] theorem finish_notes : (State.finish old s).notes = s.notes := notes_of_steady (finish_frame old s)
@[simp] theorem finish_loops : (State.finish old s).loops = s.loops := loops_of_steady (finish_frame old s)
@[simp] theorem finish_uptimeMs : (State.finish old s).uptimeMs = s.uptimeMs := uptimeMs_of_steady (finish_frame old s)
@[simp] theorem finish_wall : (State.finish old s).wall = s.wall := wall_of_steady (finish_frame old s)
@[simp] theorem finish_decision : (State.finish old s).decision = s.decision := decision_of_steady (finish_frame old s)
@[simp] theorem finish_reference : (State.finish old s).reference = s.reference :=
  reference_of_steady (finish_frame old s)
@[simp] theorem finish_framer : (State.finish old s).framer = s.framer := framer_of_steady (finish_frame old s)
@[simp] theorem finish_attentionMask : (State.finish old s).attentionMask = s.attentionMask :=
  attentionMask_of_steady (finish_frame old s)
@[simp] theorem finish_supplyRestarted : (State.finish old s).supplyRestarted = s.supplyRestarted :=
  supplyRestarted_of_steady (finish_frame old s)
@[simp] theorem finish_settingsDefaulted : (State.finish old s).settingsDefaulted = s.settingsDefaulted :=
  settingsDefaulted_of_steady (finish_frame old s)
@[simp] theorem finish_commitFailed : (State.finish old s).commitFailed = s.commitFailed :=
  commitFailed_of_steady (finish_frame old s)
@[simp] theorem finish_settings : (State.finish old s).settings = s.settings := settings_of_steady (finish_frame old s)
@[simp] theorem finish_image : (State.finish old s).image = s.image := image_of_steady (finish_frame old s)
@[simp] theorem finish_commit : (State.finish old s).commit = s.commit := commit_of_steady (finish_frame old s)
@[simp] theorem finish_power : (State.finish old s).power = s.power := power_of_steady (finish_frame old s)
@[simp] theorem finish_supply : (State.finish old s).supply = s.supply := supply_of_steady (finish_frame old s)
@[simp] theorem finish_keyOn : (State.finish old s).keyOn = s.keyOn := keyOn_of_steady (finish_frame old s)
@[simp] theorem finish_pending : (State.finish old s).pending = s.pending := pending_of_steady (finish_frame old s)

/-- `finish` changes no record of the roster but in its watch. -/
theorem finish_occupant (o : Slot) :
    ((State.finish old s).occupant o).map Occupant.unwatched = (s.occupant o).map Occupant.unwatched := by
  exact occupant_of_steady (finish_frame old s) o

/-- `finish` changes no zone record but in its hold. -/
theorem finish_zone_steady (z : Room) : ((State.finish old s).zone z).steady = (s.zone z).steady := by
  exact zone_of_steady (finish_frame old s) z

end

/-! ### Raises -/

theorem takeRaise_handedRaises (s : State) (r : AlarmRaise) : (s.takeRaise r).1.handedRaises = s.handedRaises := by
  unfold State.takeRaise State.replaceOrLose State.alarmRemoved State.endOfAlarm State.loseRaise
  repeat' split
  all_goals rfl

theorem takeRaises_handedRaises (s : State) : s.takeRaises.handedRaises = [] := by
  unfold State.takeRaises
  exact foldl_view (view := State.handedRaises) (fun t r => takeRaise_handedRaises t r) _ _

/-- Every event ends with no raise waiting. -/
@[simp] theorem finish_handedRaises (old s : State) : (State.finish old s).handedRaises = [] := by
  unfold State.finish
  rw [markPass_handedRaises, watchPass_handedRaises, takeRaises_handedRaises]

/-! ### Zones -/

/-- The zone record after an event's hold reasons have been brought up to date (R109). -/
def State.heldAfter (old s : State) (z : Room) : Zone := (State.holdZone old s z).zone z

theorem takeRaises_zones (s : State) : s.takeRaises.zones = s.zones := by
  unfold State.takeRaises
  refine foldl_view (view := State.zones) (fun t r => ?_) _ _
  unfold State.takeRaise State.replaceOrLose State.alarmRemoved State.endOfAlarm State.loseRaise
  repeat' split
  all_goals rfl

theorem unescortedPass_zones (old s : State) : (State.unescortedPass old s).zones = s.zones := by
  unfold State.unescortedPass
  split
  · rfl
  · refine foldl_view (view := State.zones) (fun t r => ?_) _ _
    unfold State.unescortedRoom
    split <;> rfl

theorem holdZone_zone_ne (old s : State) {z w : Room} (h : z ≠ w) : (State.holdZone old s z).zone w = s.zone w := by
  unfold State.holdZone
  split
  · dsimp only
    split
    · rfl
    · split
      · exact Table.get_set_ne _ _ h
      · exact Table.get_set_ne _ _ h
  · rfl

/-- Two states that agree on a zone and on what its hold reasons read. -/
theorem holdZone_congr (old s t : State) (z : Room) (hz : t.zone z = s.zone z)
    (hc : t.conditions z = s.conditions z) (hs : t.zoneSettings z = s.zoneSettings z) (hu : t.uptimeMs = s.uptimeMs) :
    (State.holdZone old t z).zone z = (State.holdZone old s z).zone z := by
  unfold State.holdZone
  rw [hz, hc, hs]
  have ha : t.after = s.after := by
    funext n
    simp [State.after, hu]
  rw [ha]
  split
  · dsimp only
    split
    · exact hz
    · split
      · simp [State.zone]
      · simp [State.zone]
  · exact hz

theorem holdZone_conditions (old s : State) {z w : Room} (h : z ≠ w) :
    (State.holdZone old s z).conditions w = s.conditions w := by
  have hz := holdZone_zone_ne old s h
  unfold State.conditions
  rw [hz]
  unfold State.holdZone
  split
  · dsimp only
    split
    · rfl
    · split <;> rfl
  · rfl

theorem holdFold_zone (old : State) (z : Room) (l : List Room) (hn : l.Nodup) (s : State) :
    (l.foldl (State.holdZone old) s).zone z = if z ∈ l then State.heldAfter old s z else s.zone z := by
  induction l generalizing s with
  | nil => simp
  | cons a l ih =>
    have hn' := List.nodup_cons.mp hn
    rw [List.foldl_cons, ih hn'.2]
    by_cases ha : a = z
    · subst ha
      simp [hn'.1, State.heldAfter]
    · have hne : z ≠ a := fun e => ha e.symm
      have hset : (State.holdZone old s a).settings = s.settings :=
        settings_of_steady (steady_holdZone old s a)
      have hu : (State.holdZone old s a).uptimeMs = s.uptimeMs := uptimeMs_of_steady (steady_holdZone old s a)
      by_cases hm : z ∈ l
      · simp only [hm, if_true, List.mem_cons, or_true]
        exact holdZone_congr old s _ z (holdZone_zone_ne old s ha) (holdZone_conditions old s ha)
          (by simp [State.zoneSettings, hset]) hu
      · simp only [hm, if_false, List.mem_cons, hne, or_false]
        exact holdZone_zone_ne old s ha

/-- The zone record after `finish` is the record with its hold reasons brought up to date. -/
theorem finish_zone (old s : State) (z : Room) : (State.finish old s).zone z = State.heldAfter old s z := by
  have h1 : (State.finish old s).zones = (State.holdPass old s).zones := by
    unfold State.finish
    rw [markPass_zones, watchPass_zones, takeRaises_zones, unescortedPass_zones]
  have h2 := holdFold_zone old z (List.finRange 16) (List.nodup_finRange 16) s
  rw [if_pos (List.mem_finRange z)] at h2
  exact (congrArg (fun t => Table.get t z) h1).trans h2

/-- A zone that is not in HELD is left alone by `finish`. -/
theorem finish_zone_of_not_held (old s : State) (z : Room) (h : (s.zone z).state ≠ .held) :
    (State.finish old s).zone z = s.zone z := by
  rw [finish_zone]
  simp [State.heldAfter, State.holdZone, h]

theorem HoldReasons.follow_self (r c : HoldReasons) : r.follow c c = r := by
  simp [HoldReasons.follow]

/-- A zone whose hold-reason conditions the event did not change is left alone by `finish`. -/
theorem finish_zone_of_conditions (old s : State) (z : Room) (h : s.conditions z = old.conditions z) :
    (State.finish old s).zone z = s.zone z := by
  rw [finish_zone]
  simp [State.heldAfter, State.holdZone, h, HoldReasons.follow_self]

/-- `finish` takes a zone to no state but PREDISCHARGE, and that only from HELD. -/
theorem finish_zone_state (old s : State) (z : Room) :
    ((State.finish old s).zone z).state = (s.zone z).state
      ∨ ((s.zone z).state = .held ∧ ((State.finish old s).zone z).state = .predischarge) := by
  rw [finish_zone]
  unfold State.heldAfter State.holdZone
  split
  · next hh =>
    dsimp only
    split
    · exact Or.inl rfl
    · split
      · exact Or.inr ⟨hh, by simp [State.zone, Zone.resumed]⟩
      · exact Or.inl (by simp [State.zone])
  · exact Or.inl rfl

/-! ### Alarms -/

/-- An event that hands no raise, changes no list and holds no zone leaves the alarm table alone. -/
theorem takeRaises_of_none (s : State) (h : s.handedRaises = []) : s.takeRaises = s := by
  unfold State.takeRaises
  rw [h]
  cases s
  cases h
  rfl

/-! ### The shape of the commands -/

/-- An event of the running part. -/
theorem event_of_running (s : State) (f : State → State) (h : s.running = true) :
    s.event f = State.finish s (f { s with handedRaises := [] }) := by
  simp [State.event, h]

/-- No event is taken while the part is held. -/
theorem event_of_held (s : State) (f : State → State) (h : s.running = false) : s.event f = s := by
  simp [State.event, h]

/-- A field event while the supply is NORMAL. -/
theorem fieldEvent_of_live (s : State) (f : State → State) (h : s.running = true) (hl : s.inLow = false) :
    s.fieldEvent f = State.finish s (f { s with handedRaises := [] }) := by
  simp [State.fieldEvent, hl, event_of_running s f h]

/-- No field event is taken in LOW. -/
theorem fieldEvent_of_low (s : State) (f : State → State) (h : s.inLow = true) : s.fieldEvent f = s := by
  simp [State.fieldEvent, h]

/-- A request that may change records. -/
theorem serve_of_receiving (s : State) (act : State → Answer × State) (h : s.running = true)
    (hf : s.framer.step = .receiving) :
    s.serve act = State.finish s ((act { s with handedRaises := [] }).2.answering (act { s with handedRaises := [] }).1) := by
  simp [State.serve, hf, event_of_running s _ h]

/-- A request that changes no record changes the framer only. -/
theorem report_of_receiving (s : State) (answer : State → Answer) (h : s.running = true)
    (hf : s.framer.step = .receiving) :
    s.report answer = { s with framer := { step := .answering, answer := some (answer s) } } := by
  simp [State.report, h, hf, State.answering]

end Sys2Proof.Machine
end

