-- ==== Sys2Proof/Laws/Frames.lean ====
section
/-! SUPPORT. What each shared operation may change, as a list of the state's parts: one law per operation. A law of an
operation that calls others is the union of theirs. -/

namespace Sys2Proof.Machine

variable {s t u : State} {ps qs : List Part}

/-! ### Frames -/

theorem Part.same_refl (p : Part) (s : State) : p.same s s := by
  cases p <;> first | rfl | exact fun _ => rfl

theorem Part.same_trans {p : Part} (h : p.same s t) (k : p.same t u) : p.same s u := by
  cases p <;> first | exact Eq.trans k h | exact fun o => (k o).trans (h o)

theorem OnlyChanges.refl (ps : List Part) (s : State) : OnlyChanges ps s s := fun p _ => p.same_refl s

theorem OnlyChanges.trans (h : OnlyChanges ps s t) (k : OnlyChanges ps t u) : OnlyChanges ps s u :=
  fun p hp => Part.same_trans (h p hp) (k p hp)

theorem OnlyChanges.mono (h : OnlyChanges ps s t) (hs : ∀ p ∈ ps, p ∈ qs) : OnlyChanges qs s t :=
  fun p hp => h p fun hm => hp (hs p hm)

/-- A law of a part added to a law of fewer parts, checked by evaluation. -/
theorem OnlyChanges.widen (h : OnlyChanges ps s t) (hs : (ps.all fun p => decide (p ∈ qs)) = true) : OnlyChanges qs s t :=
  h.mono fun p hp => of_decide_eq_true (List.all_eq_true.mp hs p hp)

/-- A fold whose steps change parts of one list changes parts of that list. -/
theorem OnlyChanges.foldl {α : Type} {f : State → α → State} (h : ∀ s a, OnlyChanges ps s (f s a)) (l : List α)
    (s : State) : OnlyChanges ps s (l.foldl f s) := by
  induction l generalizing s with
  | nil => exact .refl ps s
  | cons a l ih => exact (h s a).trans (ih (f s a))

/-! ### One record -/

theorem setPermit_only (s : State) (p : PermitIx) (x : Option Permit) : OnlyChanges [.permits] s (s.setPermit p x) := by
  intro q hq; cases q <;> first | rfl | exact fun _ => rfl | exact absurd (by decide) hq

theorem setOccupant_only (s : State) (o : Slot) (x : Option Occupant) :
    OnlyChanges [.records, .watches] s (s.setOccupant o x) := by
  intro q hq; cases q <;> first | rfl | exact absurd (by decide) hq

theorem setList_only (s : State) (r : Room) (l : List Slot) : OnlyChanges [.lists] s (s.setList r l) := by
  intro q hq; cases q <;> first | rfl | exact fun _ => rfl | exact absurd (by decide) hq

theorem setPair_only (s : State) (r : Room) (h : Option PendingPair) : OnlyChanges [.pairs] s (s.setPair r h) := by
  intro q hq; cases q <;> first | rfl | exact fun _ => rfl | exact absurd (by decide) hq

theorem modDoor_only (s : State) (d : DoorNo) (f : Door → Door) : OnlyChanges [.doors] s (s.modDoor d f) := by
  intro q hq; cases q <;> first | rfl | exact fun _ => rfl | exact absurd (by decide) hq

theorem setStation_only (s : State) (t : StationId) (x : Station) : OnlyChanges [.stations] s (s.setStation t x) := by
  intro q hq; cases q <;> first | rfl | exact fun _ => rfl | exact absurd (by decide) hq

theorem setNote_only (s : State) (t : StationId) (x : HandshakeNotes) : OnlyChanges [.notes] s (s.setNote t x) := by
  intro q hq; cases q <;> first | rfl | exact fun _ => rfl | exact absurd (by decide) hq

theorem setZone_only (s : State) (z : Room) (x : Zone) : OnlyChanges [.zones] s (s.setZone z x) := by
  intro q hq; cases q <;> first | rfl | exact fun _ => rfl | exact absurd (by decide) hq

theorem setAlarm_only (s : State) (i : AlarmSlot) (x : Option Alarm) : OnlyChanges [.alarms] s (s.setAlarm i x) := by
  intro q hq; cases q <;> first | rfl | exact fun _ => rfl | exact absurd (by decide) hq

theorem endCause_only (s : State) (k : AlarmKey) : OnlyChanges [.alarms] s (s.endCause k) := by
  intro q hq; cases q <;> first | rfl | exact fun _ => rfl | exact absurd (by decide) hq

theorem claimUncertain_only (s : State) (r : Room) : OnlyChanges [.uncertain] s (s.claimUncertain r) := by
  intro q hq; cases q <;> first | rfl | exact fun _ => rfl | exact absurd (by decide) hq

/-- Handing a raise changes no part: the table is changed when the raise is taken. -/
theorem raise_only (s : State) (k : AlarmKey) (p : Option PermitIx) : OnlyChanges [] s (s.raise k p) := by
  intro q _; cases q <;> first | rfl | exact fun _ => rfl

theorem mark_only (s : State) (i : Identity) : OnlyChanges [.changes] s (s.mark i) := by
  intro q hq; cases q <;> first | rfl | exact fun _ => rfl | exact absurd (by decide) hq

theorem markPass_only (old s : State) : OnlyChanges [.changes] s (State.markPass old s) := by
  intro q hq; cases q <;> first | rfl | exact fun _ => rfl | exact absurd (by decide) hq

theorem setWatch_only (s : State) (o : Slot) (w : Option Watch) : OnlyChanges [.watches] s (s.setWatch o w) := by
  intro q hq
  have h := steady_setWatch s o w
  cases q <;> first
    | exact fun x => occupant_of_steady h x
    | exact absurd (by decide) hq
    | (unfold State.setWatch; split <;> rfl)

/-! ### Permits and the roster -/

/-- What the leaving of a record may change. -/
def rosterParts : List Part := [.permits, .records, .watches, .lists, .pairs, .doors, .alarms]

theorem dropPairsOf_only (s : State) (p : PermitIx) : OnlyChanges [.pairs] s (s.dropPairsOf p) := by
  intro q hq; cases q <;> first | rfl | exact fun _ => rfl | exact absurd (by decide) hq

theorem removePermit_only (s : State) (p : PermitIx) : OnlyChanges [.permits, .pairs] s (s.removePermit p) :=
  ((setPermit_only s p none).widen rfl).trans ((dropPairsOf_only _ p).widen rfl)

theorem unlink_only (s : State) (p : PermitIx) : OnlyChanges [.permits, .pairs] s (s.unlink p) := by
  unfold State.unlink
  split
  · exact .refl _ s
  · split
    · exact removePermit_only s p
    · exact (setPermit_only s p _).widen rfl

theorem chargePermit_only (s : State) (p : PermitIx) (o : Slot) : OnlyChanges [.permits] s (s.chargePermit p o) := by
  unfold State.chargePermit
  split
  · exact .refl _ s
  · exact setPermit_only s p _

theorem createRecord_only (s : State) (o : Slot) (r : Room) (p : PermitIx) (d : Bool) (q : Option Slot) :
    OnlyChanges [.permits, .records, .watches, .lists] s (s.createRecord o r p d q) :=
  (((setOccupant_only s o _).widen rfl).trans ((setList_only _ r _).widen rfl)).trans ((chargePermit_only _ p o).widen rfl)

theorem clearPartner_only (s : State) (q : Option Slot) : OnlyChanges [.records, .watches] s (s.clearPartner q) := by
  unfold State.clearPartner
  split
  · exact .refl _ s
  · split
    · exact .refl _ s
    · exact setOccupant_only s _ _

theorem strikeAlarms_only (s : State) (o : Slot) : OnlyChanges [.alarms] s (s.strikeAlarms o) := by
  intro q hq; cases q <;> first | rfl | exact fun _ => rfl | exact absurd (by decide) hq

theorem strikeGrants_only (s : State) (o : Slot) : OnlyChanges [.doors] s (s.strikeGrants o) := by
  intro q hq; cases q <;> first | rfl | exact fun _ => rfl | exact absurd (by decide) hq

/-- The leaving of a record (R23). -/
theorem leaveRoster_only (s : State) (o : Slot) : OnlyChanges rosterParts s (s.leaveRoster o) := by
  unfold State.leaveRoster
  split
  · exact .refl _ s
  · exact ((((((setOccupant_only s o none).widen rfl).trans ((setList_only _ _ _).widen rfl)).trans
      ((unlink_only _ _).widen rfl)).trans ((clearPartner_only _ _).widen rfl)).trans
      ((strikeAlarms_only _ o).widen rfl)).trans ((strikeGrants_only _ o).widen rfl)

theorem setPhase_only (s : State) (o : Slot) (p : Phase) : OnlyChanges [.records, .watches] s (s.setPhase o p) := by
  unfold State.setPhase
  split
  · exact .refl _ s
  · exact setOccupant_only s o _

theorem movePassed_only (k : GrantKind) (d : DoorNo) (s : State) (o : Slot) :
    OnlyChanges rosterParts s (State.movePassed k d s o) := by
  unfold State.movePassed
  split
  · exact .refl _ s
  · split <;> first | exact (setPhase_only s o _).widen rfl | exact leaveRoster_only s o | exact .refl _ s

/-- A completed passage (R43). -/
theorem passage_only (s : State) (k : GrantKind) (d : DoorNo) (l : List Slot) :
    OnlyChanges rosterParts s (s.passage k d l) :=
  .foldl (movePassed_only k d) l s

theorem retireAdmitted_only (s : State) (o : Slot) : OnlyChanges rosterParts s (s.retireAdmitted o) := by
  unfold State.retireAdmitted
  split
  · split
    · exact leaveRoster_only s o
    · exact .refl _ s
  · exact .refl _ s

/-- The end of a grant without passage (R44). -/
theorem endWithoutPassage_only (s : State) (g : Grant) : OnlyChanges rosterParts s (s.endWithoutPassage g) := by
  unfold State.endWithoutPassage
  split <;> first | exact .foldl retireAdmitted_only g.slots s | exact .refl _ s

/-! ### Doors -/

theorem toOpen_only (s : State) (d : DoorNo) (g : Option Grant) : OnlyChanges [.doors] s (s.toOpen d g) :=
  modDoor_only s d _

theorem toReleasedWith_only (s : State) (d : DoorNo) (g : Grant) : OnlyChanges [.doors] s (s.toReleasedWith d g) :=
  modDoor_only s d _

theorem toReleasedHeld_only (s : State) (d : DoorNo) : OnlyChanges [.doors] s (s.toReleasedHeld d) :=
  modDoor_only s d _

theorem toUnbolting_only (s : State) (d : DoorNo) (g : Option Grant) : OnlyChanges [.doors] s (s.toUnbolting d g) := by
  unfold State.toUnbolting
  split
  · split
    · exact toReleasedWith_only s d _
    · exact toReleasedHeld_only s d
  · exact modDoor_only s d _

theorem leaveFault_only (s : State) (d : DoorNo) (g : Grant) : OnlyChanges [.doors] s (s.leaveFault d g) := by
  unfold State.leaveFault
  split
  · exact toOpen_only s d _
  · exact toReleasedWith_only s d g

theorem driveExit_only (s : State) (d : DoorNo) (g : Grant) : OnlyChanges [.doors] s (s.driveExit d g) := by
  unfold State.driveExit
  split
  · exact leaveFault_only s d g
  · exact modDoor_only s d _

/-- A grant that begins (R52). -/
theorem beginGrant_only (s : State) (d : DoorNo) (g : Grant) : OnlyChanges [.doors] s (s.beginGrant d g) := by
  unfold State.beginGrant
  split
  · exact .refl _ s
  · split <;> first
      | exact toUnbolting_only s d _
      | exact toReleasedWith_only s d g
      | exact modDoor_only s d _
      | exact driveExit_only s d g
      | exact .refl _ s

theorem releasePending_only (s : State) (d : DoorNo) : OnlyChanges [.doors] s (s.releasePending d) := by
  unfold State.releasePending
  split
  · exact .refl _ s
  · split
    · exact (modDoor_only s d _).trans (beginGrant_only _ d _)
    · exact .refl _ s

theorem withdrawHoldOpen_only (s : State) (d : DoorNo) : OnlyChanges [.doors] s (s.withdrawHoldOpen d) := by
  unfold State.withdrawHoldOpen
  dsimp only
  split
  · split <;> first | exact toUnbolting_only s d none | exact .refl _ s
  · exact .refl _ s

/-- What reaching SECURED checks (R57, R61, R63, R68). -/
theorem checkWaiting_only (s : State) (d : DoorNo) : OnlyChanges [.doors] s (s.checkWaiting d) :=
  (((releasePending_only s d).trans (releasePending_only _ _)).trans (withdrawHoldOpen_only _ d)).trans
    (withdrawHoldOpen_only _ _)

theorem toSecured_only (s : State) (d : DoorNo) : OnlyChanges [.doors, .alarms] s (s.toSecured d) :=
  (((modDoor_only s d _).widen rfl).trans ((endCause_only _ _).widen rfl)).trans ((checkWaiting_only _ d).widen rfl)

theorem enteredBolting_only (s : State) (d : DoorNo) : OnlyChanges [.doors, .alarms] s (s.enteredBolting d) := by
  unfold State.enteredBolting
  split
  · exact toSecured_only s d
  · exact (releasePending_only s d).widen rfl

/-- Entry to BOLTING (R57). -/
theorem toBolting_only (s : State) (d : DoorNo) : OnlyChanges [.doors, .alarms] s (s.toBolting d) :=
  ((modDoor_only s d _).widen rfl).trans (enteredBolting_only _ d)

theorem toReleasedBare_only (s : State) (d : DoorNo) : OnlyChanges [.doors, .alarms] s (s.toReleasedBare d) := by
  unfold State.toReleasedBare
  split <;> first | exact (modDoor_only s d _).widen rfl | exact toBolting_only s d

theorem completePassage_only (s : State) (d : DoorNo) : OnlyChanges rosterParts s (s.completePassage d) := by
  unfold State.completePassage
  split
  · exact .refl _ s
  · exact ((modDoor_only s d _).widen rfl).trans (passage_only _ _ d _)

theorem endGrant_only (s : State) (d : DoorNo) : OnlyChanges rosterParts s (s.endGrant d) := by
  unfold State.endGrant
  split
  · exact .refl _ s
  · exact ((modDoor_only s d _).widen rfl).trans (endWithoutPassage_only _ _)

theorem toBoltingOrHeld_only (s : State) (d : DoorNo) : OnlyChanges [.doors, .alarms] s (s.toBoltingOrHeld d) := by
  unfold State.toBoltingOrHeld
  split
  · exact ((toReleasedHeld_only s d).trans (releasePending_only _ d)).widen rfl
  · exact toBolting_only s d

theorem disposeGrant_only (s : State) (d : DoorNo) : OnlyChanges rosterParts s (s.disposeGrant d) := by
  unfold State.disposeGrant
  split
  · split
    · split
      · exact completePassage_only s d
      · exact endGrant_only s d
    · exact .refl _ s
  all_goals first
    | exact endGrant_only s d
    | (split
       · split
         · exact completePassage_only s d
         · exact endGrant_only s d
       · exact .refl _ s)

/-- Entry to FAULT (R59). -/
theorem enterFault_only (s : State) (d : DoorNo) (c : FaultCause) : OnlyChanges rosterParts s (s.enterFault d c) := by
  unfold State.enterFault
  split
  · exact ((disposeGrant_only s d).trans ((modDoor_only _ d _).widen rfl)).trans ((releasePending_only _ d).widen rfl)
  · exact .refl _ s

theorem forcedOpen_only (s : State) (d : DoorNo) : OnlyChanges [.doors, .uncertain] s (s.forcedOpen d) :=
  ((((modDoor_only s d _).widen rfl).trans ((toOpen_only _ d none).widen rfl)).trans ((raise_only _ _ none).widen rfl)).trans
    ((claimUncertain_only _ _).widen rfl)

theorem contactOpens_only (s : State) (d : DoorNo) : OnlyChanges [.doors, .uncertain] s (s.contactOpens d) := by
  unfold State.contactOpens
  split
  all_goals first
    | exact forcedOpen_only s d
    | exact (toOpen_only s d _).widen rfl
    | exact ((toOpen_only s d none).widen rfl).trans ((claimUncertain_only _ _).widen rfl)
    | exact .refl _ s
    | (split
       · exact (toOpen_only s d _).widen rfl
       · exact (claimUncertain_only s _).widen rfl)

theorem contactCloses_only (s : State) (d : DoorNo) : OnlyChanges [.doors] s (s.contactCloses d) := by
  unfold State.contactCloses
  split
  · split
    · exact toReleasedHeld_only s d
    · exact modDoor_only s d _
  all_goals exact .refl _ s

/-- A contact value taken (R53 to R60). -/
theorem takeContact_only (s : State) (d : DoorNo) (c : Contact) :
    OnlyChanges [.doors, .uncertain, .alarms] s (s.takeContact d c) := by
  cases c
  · exact (((modDoor_only s d _).widen rfl).trans ((endCause_only _ _).widen rfl)).trans ((contactCloses_only _ d).widen rfl)
  · exact ((modDoor_only s d _).widen rfl).trans ((contactOpens_only _ d).widen rfl)

/-- A bolt reading taken (R51, R53, R57 to R60). -/
theorem takeBolt_only (s : State) (d : DoorNo) (r : BoltReading) : OnlyChanges rosterParts s (s.takeBolt d r) := by
  have h : OnlyChanges rosterParts s (s.modDoor d fun x => { x with bolt := some r }) := (modDoor_only s d _).widen rfl
  unfold State.takeBolt
  dsimp only
  split
  · exact h
  · exact h.trans (enterFault_only _ d _)
  · split
    · exact h.trans ((toReleasedWith_only _ d _).widen rfl)
    · exact h.trans ((toReleasedBare_only _ d).widen rfl)
  · exact h.trans ((toSecured_only _ d).widen rfl)
  iterate 2
    split
    · exact h.trans ((toBolting_only _ d).widen rfl)
    · exact h
  iterate 2
    split
    · exact h.trans ((leaveFault_only _ d _).widen rfl)
    · exact h
  exact h

theorem mergeExit_only (s : State) (d : DoorNo) (l : List Slot) : OnlyChanges rosterParts s (s.mergeExit d l) := by
  unfold State.mergeExit
  split
  · exact (toReleasedWith_only s d _).widen rfl
  · exact (completePassage_only s d).trans ((toReleasedWith_only _ d _).widen rfl)
  · exact .refl _ s

theorem pendExit_only (s : State) (d : DoorNo) (l : List Slot) : OnlyChanges [.doors] s (s.pendExit d l) :=
  modDoor_only s d _

/-- An exit taken (R62). -/
theorem takeExit_only (s : State) (d : DoorNo) (l : List Slot) : OnlyChanges rosterParts s (s.takeExit d l).1 := by
  unfold State.takeExit
  split
  · exact .refl _ s
  · split
    · exact mergeExit_only s d l
    · split
      · exact (beginGrant_only s d _).widen rfl
      · exact (pendExit_only s d l).widen rfl

theorem recomputed_only (s : State) (d : DoorNo) (c : Contact) (r : BoltReading) :
    OnlyChanges [.doors, .uncertain, .alarms] s (s.recomputed d c r) := by
  have ho : OnlyChanges [.doors, .uncertain, .alarms] s ((s.toOpen d none).claimUncertain (roomOf d)) :=
    ((toOpen_only s d none).widen rfl).trans ((claimUncertain_only _ _).widen rfl)
  have hf : OnlyChanges [.doors, .uncertain, .alarms] s (s.faultRecord d .sensorConflict) :=
    (modDoor_only s d _).widen rfl
  cases c <;> cases r
  · exact (toSecured_only s d).widen rfl
  · exact (toReleasedBare_only s d).widen rfl
  · exact (toBolting_only s d).widen rfl
  · exact hf
  · exact ho
  · exact ho
  · exact ho
  · exact hf

/-- A door recomputed at the return of its station (R61). -/
theorem recompute_only (s : State) (d : DoorNo) (c : Contact) (r : BoltReading) :
    OnlyChanges [.doors, .uncertain, .alarms] s (s.recompute d c r) := by
  have h := (modDoor_only s d fun x => { x with contact := some c, bolt := some r }).widen
    (qs := [.doors, .uncertain, .alarms]) rfl
  cases c
  · exact ((h.trans ((endCause_only _ _).widen rfl)).trans (recomputed_only _ d _ r)).trans
      ((checkWaiting_only _ d).widen rfl)
  · exact (h.trans (recomputed_only _ d _ r)).trans ((checkWaiting_only _ d).widen rfl)

/-- What a change of mode may change. -/
def modeParts : List Part := [.doors, .pairs, .uncertain, .alarms]

/-- An effective mode becomes another (R65). -/
theorem changeMode_only (s : State) (d : DoorNo) (m : DoorMode) : OnlyChanges modeParts s (s.changeMode d m) := by
  have cond {b : Prop} [Decidable b] {s t v : State} (h : OnlyChanges modeParts s t) (k : OnlyChanges modeParts t v) :
      OnlyChanges modeParts s (if b then v else t) := by
    split
    · exact h.trans k
    · exact h
  unfold State.changeMode
  dsimp only
  exact cond (cond (cond (cond (cond ((modDoor_only s d _).widen rfl) ((setPair_only _ _ none).widen rfl))
    ((claimUncertain_only _ _).widen rfl)) ((toBolting_only _ d).widen rfl)) ((releasePending_only _ d).widen rfl))
    ((withdrawHoldOpen_only _ d).widen rfl)

theorem recomputeMode_only (s : State) (d : DoorNo) : OnlyChanges modeParts s (s.recomputeMode d) := by
  unfold State.recomputeMode
  dsimp only
  split
  · exact .refl _ s
  · exact changeMode_only s d _

theorem cancelEntry_only (s : State) (d : DoorNo) : OnlyChanges rosterParts s (s.cancelEntry d) := by
  unfold State.cancelEntry
  split
  · split <;> first
      | exact (endGrant_only s d).trans ((toBolting_only _ d).widen rfl)
      | exact .refl _ s
  · exact .refl _ s

/-! ### Zones -/

/-- What a zone's change of state may change. -/
def zoneParts : List Part := [.zones, .doors, .pairs, .uncertain, .alarms, .permits, .records, .watches, .lists]

/-- A zone's change of state (R99). -/
theorem changeZone_only (s : State) (z : Room) (x : Zone) : OnlyChanges zoneParts s (s.changeZone z x) := by
  have hm : OnlyChanges zoneParts s ((s.setZone z x).recomputeModes z) :=
    (((setZone_only s z x).widen rfl).trans ((recomputeMode_only _ _).widen rfl)).trans ((recomputeMode_only _ _).widen rfl)
  have hl (t : State) : OnlyChanges zoneParts t (t.leaveAdmitting z) :=
    (((cancelEntry_only t _).widen rfl).trans ((cancelEntry_only _ _).widen rfl)).trans ((setPair_only _ z none).widen rfl)
  unfold State.changeZone
  dsimp only
  split
  · split
    · exact (hm.trans (hl _)).trans ((endCause_only _ _).widen rfl)
    · exact hm.trans ((endCause_only _ _).widen rfl)
  · split
    · exact hm.trans (hl _)
    · exact hm

theorem detect_only (s : State) (z : Room) : OnlyChanges zoneParts s (s.detect z) := by
  unfold State.detect
  dsimp only
  split
  · split
    · exact changeZone_only s z _
    · split
      · exact changeZone_only s z _
      · exact .refl _ s
  · split
    · exact changeZone_only s z _
    · exact .refl _ s
  all_goals exact .refl _ s

theorem applyAbort_only (s : State) (z : Room) : OnlyChanges zoneParts s (s.applyAbort z) := by
  unfold State.applyAbort
  dsimp only
  split
  · exact changeZone_only s z _
  · exact .refl _ s

theorem applyPressure_only (s : State) (z : Room) : OnlyChanges zoneParts s (s.applyPressure z) := by
  unfold State.applyPressure
  dsimp only
  split
  · exact changeZone_only s z _
  · exact .refl _ s

/-- A set of zone inputs (R98). -/
theorem takeZoneInputs_only (s : State) (z : Room) (i : ZoneInputs) : OnlyChanges zoneParts s (s.takeZoneInputs z i) :=
  ((((setZone_only s z _).widen rfl).trans (detect_only _ z)).trans (applyAbort_only _ z)).trans (applyPressure_only _ z)

theorem attempt_only (s : State) (z : Room) (a : Attempt) : OnlyChanges zoneParts s (s.attempt z a) :=
  (changeZone_only s z _).trans (applyPressure_only _ z)

/-- The decision at the countdown's end (R107). -/
theorem countdownEnds_only (s : State) (z : Room) : OnlyChanges zoneParts s (s.countdownEnds z) := by
  unfold State.countdownEnds
  dsimp only
  split
  · exact attempt_only s z .main
  · exact changeZone_only s z _

theorem confirmEnds_only (s : State) (z : Room) : OnlyChanges zoneParts s (s.confirmEnds z) := by
  unfold State.confirmEnds
  dsimp only
  split
  · exact attempt_only s z .reserve
  · exact (changeZone_only s z _).trans ((raise_only _ _ none).widen rfl)

theorem countHeld_only (s : State) : OnlyChanges [.zones] s s.countHeld := by
  intro q hq; cases q <;> first | rfl | exact fun _ => rfl | exact absurd (by decide) hq

/-! ### Alarms -/

/-- What taking raises may change. -/
def alarmParts : List Part := [.watches, .alarms, .overflow, .lostCount]

theorem endOfAlarm_only (s : State) (o : Slot) : OnlyChanges [.watches] s (s.endOfAlarm o) := by
  intro q hq
  have h := steady_endOfAlarm s o
  cases q <;> first
    | exact fun x => occupant_of_steady h x
    | exact absurd (by decide) hq
    | (unfold State.endOfAlarm; split <;> first | rfl | (split <;> first | rfl | (split <;> rfl)))

theorem alarmRemoved_only (s : State) (a : Alarm) : OnlyChanges [.watches] s (s.alarmRemoved a) := by
  unfold State.alarmRemoved
  split
  · exact endOfAlarm_only s _
  · exact .refl _ s

theorem loseRaise_only (s : State) : OnlyChanges [.overflow, .lostCount] s s.loseRaise := by
  intro q hq; cases q <;> first | rfl | exact fun _ => rfl | exact absurd (by decide) hq

/-- A raise taken (R126, R127). -/
theorem takeRaise_only (s : State) (r : AlarmRaise) : OnlyChanges alarmParts s (s.takeRaise r).1 := by
  unfold State.takeRaise
  split
  · exact (setAlarm_only s _ _).widen rfl
  · split
    · exact (setAlarm_only s _ _).widen rfl
    · unfold State.replaceOrLose
      split
      · exact (loseRaise_only s).widen rfl
      · split
        · exact (setAlarm_only s _ _).widen rfl
        · exact ((setAlarm_only s _ _).widen rfl).trans ((alarmRemoved_only _ _).widen rfl)

theorem takeRaises_only (s : State) : OnlyChanges alarmParts s s.takeRaises := by
  have h : OnlyChanges alarmParts s { s with handedRaises := [] } := by
    intro q _; cases q <;> first | rfl | exact fun _ => rfl
  exact h.trans (.foldl (fun t r => takeRaise_only t r) _ _)

/-- LONE_WORKER raised for a slot (R139). -/
theorem raiseLoneWorker_only (s : State) (o : Slot) (l : Nat) : OnlyChanges alarmParts s (s.raiseLoneWorker o l) := by
  unfold State.raiseLoneWorker
  split
  · exact .refl _ s
  · exact (takeRaise_only s _).trans ((setWatch_only _ o _).widen rfl)

theorem catchUps_only (s : State) : OnlyChanges alarmParts s s.catchUps := by
  refine .foldl (fun t o => ?_) _ s
  unfold State.catchUp
  split
  · exact raiseLoneWorker_only t o _
  · exact .refl _ t

/-- A check-in acts on a watch (R140). -/
theorem takeCheckIn_only (s : State) (o : Slot) :
    OnlyChanges [.records, .watches, .alarms] s (s.takeCheckIn o) := by
  unfold State.takeCheckIn
  split
  · exact .refl _ s
  · split
    · exact .refl _ s
    · split
      · intro q hq; cases q <;> first | rfl | exact absurd (by decide) hq
      · exact (setOccupant_only s o _).widen rfl

/-! ### The end of an event -/

/-- What the end of an event may change (log 7, 8). -/
def finishParts : List Part := [.zones, .alarms, .watches, .overflow, .lostCount, .changes]

/-- The end of an event. -/
theorem finish_only (old s : State) : OnlyChanges finishParts s (State.finish old s) := by
  intro q hq
  have h := finish_frame old s
  cases q
  · exact permits_of_steady h
  · exact fun o => occupant_of_steady h o
  · exact absurd (by decide) hq
  · exact lists_of_steady h
  · exact uncertain_of_steady h
  · exact pairs_of_steady h
  · exact doors_of_steady h
  · exact stations_of_steady h
  · exact notes_of_steady h
  · exact loops_of_steady h
  · exact absurd (by decide) hq
  · exact absurd (by decide) hq
  · exact absurd (by decide) hq
  · exact absurd (by decide) hq
  · exact uptimeMs_of_steady h
  · exact wall_of_steady h
  · exact decision_of_steady h
  · exact reference_of_steady h
  · exact framer_of_steady h
  · exact absurd (by decide) hq
  · exact attentionMask_of_steady h
  · exact supplyRestarted_of_steady h
  · exact settingsDefaulted_of_steady h
  · exact commitFailed_of_steady h
  · exact settings_of_steady h
  · exact image_of_steady h
  · exact commit_of_steady h
  · exact power_of_steady h
  · exact supply_of_steady h
  · exact keyOn_of_steady h
  · exact pending_of_steady h

/-- An event changes what its change and the end of an event may change. -/
theorem event_only {f : State → State} (s : State) (h : ∀ v, OnlyChanges ps v (f v)) :
    OnlyChanges (ps ++ finishParts) s (s.event f) := by
  unfold State.event
  split
  · have k : OnlyChanges (ps ++ finishParts) s { s with handedRaises := [] } := by
      intro q _; cases q <;> first | rfl | exact fun _ => rfl
    exact (k.trans ((h _).mono fun p hp => List.mem_append_left _ hp)).trans
      ((finish_only s _).mono fun p hp => List.mem_append_right _ hp)
  · exact .refl _ s

end Sys2Proof.Machine
end

