-- ==== Sys2Proof/Laws/Requests.lean ====
section
/-! SUPPORT. What a request does to the rest of the part: a request that acts on no record changes the framer only, and
`finish` adds nothing to an event that changed no record (R166). -/

namespace Sys2Proof.Machine

theorem HoldReasons.follow_same (r c : HoldReasons) : r.follow c c = r := HoldReasons.follow_self r c

theorem foldl_fixed {α : Type} (f : State → α → State) (t : State) (l : List α) (h : ∀ a ∈ l, f t a = t) :
    l.foldl f t = t := by
  induction l with
  | nil => rfl
  | cons a l ih =>
    rw [List.foldl_cons, h a (List.mem_cons_self ..)]
    exact ih fun b hb => h b (List.mem_cons_of_mem _ hb)

/-- No zone's hold reasons move when no condition has changed. -/
theorem holdPass_of_conditions (old s : State) (h : ∀ z, s.conditions z = old.conditions z) :
    State.holdPass old s = s := by
  refine foldl_fixed _ _ _ fun z _ => ?_
  unfold State.holdZone
  rw [h z, HoldReasons.follow_self]
  simp

/-- No unescorted condition is compared when no list has changed. -/
theorem unescortedPass_of_lists (old s : State) (h : s.lists = old.lists) : State.unescortedPass old s = s := by
  unfold State.unescortedPass
  have e : (List.finRange 16).filter (fun r => decide (old.list r ≠ s.list r)) = [] := by
    rw [List.filter_eq_nil_iff]
    intro r _
    simp [State.list, h]
  rw [e]
  split <;> rfl

/-- A state that agrees with another in everything `finish` compares is left as it is. -/
theorem watchPass_of_steady (old s : State) (h : ∀ x, State.watchTriggered old s x = false) :
    State.watchPass old s = s := by
  have e : (s.occupants.map fun x => x.map fun o =>
      if State.watchTriggered old s o then { o with watch := s.evaluatedWatch o } else o) = s.occupants := by
    apply Table.map_id'
    intro i
    simp [h]
  unfold State.watchPass
  rw [e]

theorem or_decide_self (b : Bool) {α : Type} [DecidableEq α] (x : α) : (b || decide (x ≠ x)) = b := by
  simp

theorem markTable_self {n : Nat} {α : Type} [DecidableEq α] (m : Table n Bool) (t : Table n α) :
    markTable m t t = m := by
  apply Table.ext_get
  intro i
  simp [markTable]

theorem markViews_self {n : Nat} {β : Type} [DecidableEq β] (m : Table n Bool) (v : Fin n → β) :
    markViews m v v = m := by
  apply Table.ext_get
  intro i
  simp [markViews]

/-- An event that changes the framer only. -/
theorem finish_answering (s : State) (a : Answer) (h : s.handedRaises = []) :
    State.finish s (s.answering a) = s.answering a := by
  unfold State.finish
  rw [holdPass_of_conditions s (s.answering a) (fun _ => rfl), unescortedPass_of_lists s (s.answering a) rfl,
    takeRaises_of_none (s.answering a) h, watchPass_of_steady s (s.answering a) (fun x => ?_)]
  · have hz : (s.answering a).zoneView = s.zoneView := rfl
    have hd : (s.answering a).doorView = s.doorView := rfl
    have ht : (s.answering a).stationView = s.stationView := rfl
    have hc : (s.answering a).clockView = s.clockView := rfl
    have hs : (s.answering a).statusView = s.statusView := rfl
    have ho : (s.answering a).occupants = s.occupants := rfl
    have hp : (s.answering a).permits = s.permits := rfl
    have hl : (s.answering a).alarms = s.alarms := rfl
    unfold State.markPass
    rw [hz, hd, ht, hc, hs, ho, hp, hl]
    simp only [markViews_self, markTable_self, or_decide_self]
    rfl
  · have hl : State.recordLeft s (s.answering a) x.room = false := by
      simp only [State.recordLeft, State.list, answering_lists, List.any_eq_false]
      exact fun o ho hn => of_decide_eq_true hn ho
    simp only [State.watchTriggered, hl]
    simp [State.insideSlots, State.watchAlways, State.list, State.occupant, State.permit]

/-- An event that changes nothing. -/
theorem finish_same (s : State) (h : s.handedRaises = []) : State.finish s s = s := by
  unfold State.finish
  rw [holdPass_of_conditions s s (fun _ => rfl), unescortedPass_of_lists s s rfl, takeRaises_of_none s h,
    watchPass_of_steady s s (fun x => ?_)]
  · unfold State.markPass
    simp only [markViews_self, markTable_self, or_decide_self]
  · have hl : State.recordLeft s s x.room = false := by
      simp only [State.recordLeft, List.any_eq_false]
      exact fun o ho hn => of_decide_eq_true hn ho
    simp only [State.watchTriggered, hl]
    simp

/-- Clearing a list of raises that is empty changes nothing. -/
theorem clear_handedRaises (s : State) (h : s.handedRaises = []) : ({ s with handedRaises := [] } : State) = s := by
  cases s
  cases h
  rfl

/-- An event whose change finds nothing to act on. -/
theorem event_of_no_change (s : State) (f : State → State) (h : s.handedRaises = []) (hf : f s = s) : s.event f = s := by
  unfold State.event
  split
  · rw [clear_handedRaises s h, hf, finish_same s h]
  · rfl

/-- A field event whose change finds nothing to act on. -/
theorem fieldEvent_of_no_change (s : State) (f : State → State) (h : s.handedRaises = []) (hf : f s = s) :
    s.fieldEvent f = s := by
  unfold State.fieldEvent
  split
  · rfl
  · exact event_of_no_change s f h hf

/-- A request that answers without acting changes the framer only. -/
theorem serve_of_answer (s : State) (act : State → Answer × State) (a : Answer) (h : s.running = true)
    (hf : s.framer.step = .receiving) (hr : s.handedRaises = []) (ha : act s = (a, s)) :
    s.serve act = s.answering a := by
  have e : ({ s with handedRaises := [] } : State) = s := by
    cases s
    cases hr
    rfl
  rw [serve_of_receiving s act h hf, e, ha]
  exact finish_answering s a hr

/-- A request that acts: its answer stands in the framer, and the event ends as every event does. -/
theorem serve_of_action (s t : State) (act : State → Answer × State) (a : Answer) (h : s.running = true)
    (hf : s.framer.step = .receiving) (hr : s.handedRaises = []) (ha : act s = (a, t)) :
    s.serve act = State.finish s (t.answering a) := by
  have e : ({ s with handedRaises := [] } : State) = s := by
    cases s
    cases hr
    rfl
  rw [serve_of_receiving s act h hf, e, ha]

/-- An event that hands no raise, changes no list and moves no condition of a hold reason ends with its watches
evaluated and its changes marked, and nothing else. -/
theorem finish_quiet (old s : State) (hr : s.handedRaises = []) (hl : s.lists = old.lists)
    (hc : ∀ z, s.conditions z = old.conditions z) :
    State.finish old s = State.markPass old (State.watchPass old s) := by
  unfold State.finish
  rw [holdPass_of_conditions old s hc, unescortedPass_of_lists old s hl, takeRaises_of_none s hr]

/-- Such an event whose watches are not evaluated only marks. -/
theorem finish_silent (old s : State) (hr : s.handedRaises = []) (hl : s.lists = old.lists)
    (hc : ∀ z, s.conditions z = old.conditions z) (hw : ∀ x, State.watchTriggered old s x = false) :
    State.finish old s = State.markPass old s := by
  rw [finish_quiet old s hr hl hc, watchPass_of_steady old s hw]

/-- The watches of a room in which nobody came or went, with the hours and the permits as they were. -/
theorem watchTriggered_of_same (old s : State) (x : Occupant) (hd : s.decision = old.decision)
    (hl : s.lists = old.lists) (hi : s.insideSlots x.room = old.insideSlots x.room)
    (hw : s.watchAlways x.permit = old.watchAlways x.permit) : State.watchTriggered old s x = false := by
  have h : State.recordLeft old s x.room = false := by
    simp only [State.recordLeft, State.list, hl, List.any_eq_false]
    exact fun o ho hn => of_decide_eq_true hn ho
  simp [State.watchTriggered, h, hd, hi, hw]

/-- A request whose act hands no raise, changes no list, moves no condition and evaluates no watch: what it writes is
marked, and nothing else happens. -/
theorem serve_silent {s u : State} {act : State → Answer × State} {a : Answer} (hs : s.Ready) (ha : act s = (a, u))
    (hr : u.handedRaises = []) (hl : u.lists = s.lists) (hc : ∀ z, u.conditions z = s.conditions z)
    (hw : ∀ x, State.watchTriggered s u x = false) : s.serve act = State.markPass s (u.answering a) := by
  rw [serve_of_action s u act a hs.running hs.receiving hs.noRaise ha, finish_silent]
  · exact hr
  · exact hl
  · exact hc
  · exact hw

/-- A request whose act changes nothing: it answers, and that is all (R166). -/
theorem onlyAnswers_of_serve {c : Instr} {s : State} {act : State → Answer × State} {a : Answer} (hs : s.Ready)
    (he : exec c s = .next (s.serve act)) (ha : act s = (a, s)) : OnlyAnswers c s a := by
  rw [OnlyAnswers, he, serve_of_answer s act a hs.running hs.receiving hs.noRaise ha]

/-- A reading request: it answers, and that is all. -/
theorem onlyAnswers_of_report {c : Instr} {s : State} {answer : State → Answer} (hs : s.Ready)
    (he : exec c s = .next (s.report answer)) : OnlyAnswers c s (answer s) := by
  rw [OnlyAnswers, he, report_of_receiving s answer hs.running hs.receiving]
  rfl

/-! ### Indices -/

theorem named?_of_eq {n : Nat} {index : BitVec 16} {i : Fin n} (h : index.toNat = i.val) : named? n index = some i := by
  simp [named?, h]

theorem named?_of_le {n : Nat} {index : BitVec 16} (h : n ≤ index.toNat) : named? n index = none := by
  simp [named?, Nat.not_lt.mpr h]

theorem onRecord_of_eq {n : Nat} {index : BitVec 16} {i : Fin n} (h : index.toNat = i.val) (s : State)
    (act : Fin n → State → Answer × State) : onRecord index s act = act i s := by
  simp [onRecord, named?_of_eq h]

theorem onRecord_of_le {n : Nat} {index : BitVec 16} (h : n ≤ index.toNat) (s : State)
    (act : Fin n → State → Answer × State) : onRecord index s act = (⟨.badValue, []⟩, s) := by
  simp [onRecord, named?_of_le h]

theorem readRecord_of_eq {n : Nat} {index : BitVec 16} {i : Fin n} (h : index.toNat = i.val) (s : State)
    (answer : Fin n → State → Answer) : readRecord index s answer = answer i s := by
  simp [readRecord, named?_of_eq h]

theorem readRecord_of_le {n : Nat} {index : BitVec 16} (h : n ≤ index.toNat) (s : State)
    (answer : Fin n → State → Answer) : readRecord index s answer = ⟨.badValue, []⟩ := by
  simp [readRecord, named?_of_le h]

end Sys2Proof.Machine
end

