-- ==== Sys2Proof/Laws/Doors.lean ====
section
/-! SUPPORT. What each shared operation of the door controller makes of the door's record, once for all: beginning a
grant, testing a pending exit, withdrawing for HOLD_OPEN, reaching SECURED, BOLTING and a change of mode. Each law gives
the record in the terms of Safety.lean and says that no other door changes. -/

namespace Sys2Proof.Machine

/-! ### The two doors of a strongroom -/

theorem partner_ne (d : DoorNo) : partner d ≠ d := by revert d; decide

@[simp] theorem partner_partner (d : DoorNo) : partner (partner d) = d := by revert d; decide

theorem door_setDoor (s : State) (d e : DoorNo) (x : Door) :
    (s.setDoor d x).door e = if d = e then x else s.door e := Table.get_set _ _ _ _

@[simp] theorem door_setDoor_self (s : State) (d : DoorNo) (x : Door) : (s.setDoor d x).door d = x := Table.get_set_self _ _ _

theorem door_setDoor_ne (s : State) {d e : DoorNo} (x : Door) (h : d ≠ e) : (s.setDoor d x).door e = s.door e :=
  Table.get_set_ne _ _ h

@[simp] theorem setDoor_door (s : State) (d : DoorNo) : s.setDoor d (s.door d) = s := by
  unfold State.setDoor State.door
  rw [Table.set_get]

@[simp] theorem setDoor_setDoor (s : State) (d : DoorNo) (x y : Door) : (s.setDoor d x).setDoor d y = s.setDoor d y := by
  unfold State.setDoor
  simp only [Table.set_set]

@[simp] theorem doorSettings_setDoor (s : State) (d e : DoorNo) (x : Door) :
    (s.setDoor d x).doorSettings e = s.doorSettings e := rfl

/-! ### Grants and pending exits (R52, R60, R63) -/

theorem toReleasedWith_eq (s : State) (d : DoorNo) (k : GrantKind) (l : List Slot) (p : Option Nat) :
    s.toReleasedWith d ⟨k, l, p⟩ = s.setDoor d (s.releasedWith d (s.door d) k l) := rfl

theorem toReleasedHeld_eq (s : State) (d : DoorNo) : s.toReleasedHeld d = s.setDoor d ((s.door d).atRest .released) := rfl

theorem openUntil_eq (s : State) (d : DoorNo) (x : Door) :
    (if x.effMode.timesOpen then some (s.after (s.doorSettings d).heldOpenLimit) else none) = s.openUntil d x := by
  unfold State.openUntil
  cases x.effMode <;> simp [DoorMode.timesOpen, State.after]

theorem toOpen_eq (s : State) (d : DoorNo) (g : Option Grant) :
    s.toOpen d g = s.setDoor d { s.door d with state := .opened, grant := g, stepDeadline := s.openUntil d (s.door d) } := by
  rw [← openUntil_eq]
  rfl

/-- A grant that begins at a door without one changes the door's record only, by its state (R52, R60). -/
theorem beginGrant_begun (s : State) (d : DoorNo) (k : GrantKind) (l : List Slot) (h : (s.door d).grant = none) :
    ∃ y, s.beginGrant d ⟨k, l, none⟩ = s.setDoor d y ∧ s.Begun d k l (s.door d) y := by
  unfold State.beginGrant
  rw [h, if_neg (by decide)]
  cases hs : (s.door d).state with
  | secured | bolting =>
    refine ⟨_, ?_, ⟨fun _ => rfl, by simp [hs], by simp [hs], by simp [hs]⟩⟩
    unfold State.toUnbolting
    dsimp only
    split <;> rfl
  | released | closedWait => exact ⟨_, rfl, ⟨by simp [hs], fun _ => rfl, by simp [hs], by simp [hs]⟩⟩
  | opened | unbolting => exact ⟨_, rfl, ⟨by simp [hs], by simp [hs], fun _ => rfl, by simp [hs]⟩⟩
  | fault c =>
    cases c with
    | boltJam | sensorConflict =>
      refine ⟨_, ?_, ⟨by simp [hs], by simp [hs], by simp [hs], fun _ => rfl⟩⟩
      unfold State.driveExit State.leaveFault
      dsimp only
      by_cases hb : (s.door d).bolt = some .withdrawn
      · rw [if_pos hb, if_neg (not_not_intro hb)]
        split
        · exact toOpen_eq s d _
        · rfl
      · rw [if_neg hb, if_pos hb]
        rfl
    | stationLost =>
      exact ⟨s.door d, (setDoor_door s d).symm, ⟨by simp [hs], by simp [hs], by simp [hs], by simp [hs]⟩⟩

theorem interlockOpen_iff (s : State) (d : DoorNo) : s.interlockOpen d = true ↔ s.InterlockFree d := by
  simp [State.interlockOpen, State.InterlockFree, State.secured, or_assoc]

theorem canBegin_iff (s : State) (d : DoorNo) : s.canBegin d = true ↔ s.CanBegin d := by
  simp [State.canBegin, State.CanBegin, State.interlockOpen, State.secured, or_assoc, and_assoc]

theorem releasePending_of_grant (s : State) (d : DoorNo) (h : (s.door d).grant ≠ none) : s.releasePending d = s := by
  unfold State.releasePending State.canBegin
  split
  · rfl
  · rw [if_neg]
    cases hg : (s.door d).grant with
    | none => exact absurd hg h
    | some g => simp

/-- The test of a pending exit at a door without a grant changes the door's record only (R63). -/
theorem releasePending_tests (s : State) (d : DoorNo) (h : (s.door d).grant = none) :
    ∃ y, s.releasePending d = s.setDoor d y ∧ s.TestsPending d (s.door d) y := by
  unfold State.releasePending
  split
  · next hp =>
    exact ⟨s.door d, (setDoor_door s d).symm, ⟨fun _ => rfl, fun e he => by rw [hp] at he; cases he⟩⟩
  · next e hp =>
    split
    · next hc =>
      have hc := (canBegin_iff s d).mp hc
      obtain ⟨y, hy, hb⟩ := beginGrant_begun (s.setDoor d { s.door d with pendingExit := none }) d (exitKind e.slots) e.slots
        (by simpa using h)
      refine ⟨y, ?_, ⟨?_, ?_⟩⟩
      · have hy' := hy
        rw [setDoor_setDoor] at hy'
        exact hy'
      · rintro (hw | hw | hw)
        · rw [hp] at hw; cases hw
        · exact absurd hw hc.2.1
        · exact absurd hc.2.2 hw
      · intro e' he' _ _
        rw [hp] at he'
        cases he'
        rw [door_setDoor_self] at hb
        have hk : exitKind e.slots = exitOf e.slots := by
          unfold exitKind exitOf
          split <;> simp_all
        rw [hk] at hb
        exact ⟨hb.shut, hb.closed, hb.moving, hb.fault⟩
    · next hc =>
      have hc := mt (canBegin_iff s d).mpr hc
      refine ⟨s.door d, (setDoor_door s d).symm, ⟨fun _ => rfl, fun _ _ h1 h2 => absurd ⟨h, h1, h2⟩ hc⟩⟩

/-! ### HOLD_OPEN (R68) -/

theorem withdrawHoldOpen_of_other (s : State) (d : DoorNo) (h : (s.door d).effMode ≠ .holdOpen) :
    s.withdrawHoldOpen d = s := by
  unfold State.withdrawHoldOpen
  exact if_neg fun hc => h hc.1

/-- The withdrawal for HOLD_OPEN changes the door's record only (R68). -/
theorem withdrawHoldOpen_withdraws (s : State) (d : DoorNo) (h : (s.door d).effMode = .holdOpen) :
    ∃ y, s.withdrawHoldOpen d = s.setDoor d y ∧ s.WithdrawsFor d (s.door d) y := by
  unfold State.withdrawHoldOpen
  dsimp only
  split
  · next hc =>
    obtain ⟨_, hs, hg, hp⟩ := hc
    have hs : (s.door (partner d)).state = .secured := of_decide_eq_true hs
    have hg : (s.door d).grant = none := Option.isNone_iff_eq_none.mp hg
    have hp : (s.door d).pendingExit = none := Option.isNone_iff_eq_none.mp hp
    have hrest : ∀ st, (s.door d).state = st → st ≠ .secured → st ≠ .bolting →
        ∃ y, s = s.setDoor d y ∧ s.WithdrawsFor d (s.door d) y := fun st h0 h1 h2 =>
      ⟨s.door d, (setDoor_door s d).symm, ⟨fun _ _ _ h3 => by rw [h0] at h3; rcases h3 with h3 | h3 <;> contradiction,
        fun _ => rfl⟩⟩
    cases hst : (s.door d).state with
    | secured | bolting =>
      refine ⟨_, ?_, ⟨fun _ _ _ _ => rfl, ?_⟩⟩
      · unfold State.toUnbolting
        dsimp only
        split
        · rfl
        · unfold State.modDoor
          congr 1
          rw [← hg]
          rfl
      · simp [hs, hg, hp, hst]
    | _ => exact hrest _ hst (by simp) (by simp)
  · next hc =>
    refine ⟨s.door d, (setDoor_door s d).symm, ⟨fun h1 h2 h3 _ => ?_, fun _ => rfl⟩⟩
    exact absurd ⟨h, by simpa [State.secured] using h1, by simp [h2], by simp [h3]⟩ hc

/-! ### Reaching SECURED (R57, R63, R68) -/

/-- Where a grant leaves the record depends on the clock and the settings, and on no other record. -/
theorem State.Begun.congr {s u : State} {d : DoorNo} {k : GrantKind} {l : List Slot} {x y : Door}
    (hm : u.uptimeMs = s.uptimeMs) (hc : u.settings = s.settings) (h : u.Begun d k l x y) : s.Begun d k l x y := by
  have e1 : u.releasedWith d x k l = s.releasedWith d x k l := by
    simp only [State.releasedWith, State.doorSettings, hm, hc]
  have e2 : u.openUntil d x = s.openUntil d x := by simp only [State.openUntil, State.doorSettings, hm, hc]
  have e3 : u.doorSettings d = s.doorSettings d := by simp only [State.doorSettings, hc]
  obtain ⟨a, b, c, f⟩ := h
  rw [e1, e3, hm] at a
  rw [e1] at b
  rw [e1, e2, e3, hm] at f
  exact ⟨a, b, c, f⟩

theorem releasePending_quiet (s : State) (d : DoorNo) (h : (s.door d).pendingExit = none) : s.releasePending d = s := by
  unfold State.releasePending
  rw [h]

theorem releasePending_blocked (s : State) (d : DoorNo) (h : ¬ s.InterlockFree d) : s.releasePending d = s := by
  unfold State.releasePending
  split
  · rfl
  · exact if_neg fun hc => h ((canBegin_iff s d).mp hc).2.2

theorem releasePending_others (s : State) {d e : DoorNo} (h : d ≠ e) : (s.releasePending d).door e = s.door e := by
  by_cases hg : (s.door d).grant = none
  · obtain ⟨y, hy, _⟩ := releasePending_tests s d hg
    rw [hy, door_setDoor_ne s y h]
  · rw [releasePending_of_grant s d hg]

theorem withdrawHoldOpen_others (s : State) {d e : DoorNo} (h : d ≠ e) : (s.withdrawHoldOpen d).door e = s.door e := by
  by_cases hm : (s.door d).effMode = .holdOpen
  · obtain ⟨y, hy, _⟩ := withdrawHoldOpen_withdraws s d hm
    rw [hy, door_setDoor_ne s y h]
  · rw [withdrawHoldOpen_of_other s d hm]

/-- HOLD_OPEN waits while the partner is not SECURED or the door holds a grant (R68). -/
theorem withdrawHoldOpen_waits (s : State) (d : DoorNo)
    (h : (s.door (partner d)).state ≠ .secured ∨ (s.door d).grant ≠ none ∨ (s.door d).pendingExit ≠ none) :
    s.withdrawHoldOpen d = s := by
  by_cases hm : (s.door d).effMode = .holdOpen
  · obtain ⟨y, hy, hw⟩ := withdrawHoldOpen_withdraws s d hm
    rw [hy, hw.waits (by rcases h with h | h | h <;> simp [h]), setDoor_door]
  · exact withdrawHoldOpen_of_other s d hm

/-- A grant that has begun stands in the record, and the door is no longer SECURED. -/
theorem State.Begun.holds {s : State} {d : DoorNo} {k : GrantKind} {l : List Slot} {x y : Door} (h : s.Begun d k l x y)
    (hx : x.state ≠ .fault .stationLost) : y.grant ≠ none ∧ y.state ≠ .secured := by
  cases hs : x.state with
  | secured | bolting =>
    rw [h.shut (by simp [hs])]
    split <;> simp [State.releasedWith]
  | released | closedWait =>
    rw [h.closed (by simp [hs])]
    simp [State.releasedWith]
  | opened | unbolting =>
    rw [h.moving (by simp [hs])]
    simp [hs]
  | fault c =>
    cases c with
    | stationLost => exact absurd hs hx
    | _ =>
      rw [h.fault (by simp [hs])]
      split
      · simp [hs]
      · split <;> simp [State.releasedWith]

/-- What reaching SECURED sets off, once the door's record stands SECURED (R57, R63, R68). -/
theorem checkWaiting_secures (s u : State) (d : DoorNo) (x : Door) (hd : u.doors = (s.setDoor d x).doors)
    (hm : u.uptimeMs = s.uptimeMs) (hc : u.settings = s.settings) (hx : x.state = .secured) (hg : x.grant = none)
    (hi : u.InterlockFree d ↔ s.InterlockFree d) : s.Secures d x (u.checkWaiting d) := by
  have hn := partner_ne d
  have hu : ∀ e, u.door e = if d = e then x else s.door e := fun e => by
    have : u.door e = (s.setDoor d x).door e := by unfold State.door; rw [hd]
    rw [this, door_setDoor]
  have hud : u.door d = x := by rw [hu, if_pos rfl]
  have hup : u.door (partner d) = s.door (partner d) := by rw [hu, if_neg hn.symm]
  have hds : ∀ e, u.doorSettings e = s.doorSettings e := fun e => by unfold State.doorSettings; rw [hc]
  have idle : x.pendingExit = none ∨ ¬ s.InterlockFree d → u.releasePending d = u := by
    rintro (h | h)
    · exact releasePending_quiet u d (by rw [hud]; exact h)
    · exact releasePending_blocked u d (mt hi.mp h)
  unfold State.checkWaiting
  constructor
  · intro e h1 h2
    rw [withdrawHoldOpen_others _ h2.symm, withdrawHoldOpen_others _ h1.symm, releasePending_others _ h2.symm,
      releasePending_others _ h1.symm, hu, if_neg h1.symm]
  · intro h1 h2 h3 h4
    rw [idle (.inl h1), releasePending_quiet u _ (by rw [hup]; exact h3), withdrawHoldOpen_of_other u d (by rw [hud]; exact h2),
      withdrawHoldOpen_of_other u _ (by rw [hup]; exact h4)]
    exact ⟨hud, hup⟩
  · intro e he hf
    obtain ⟨y, hy, ht⟩ := releasePending_tests u d (by rw [hud]; exact hg)
    rw [hud] at ht
    have hb := ht.begins e he (by rw [hx]; simp) (hi.mpr hf)
    have hh := hb.holds (by simp [hx])
    rw [withdrawHoldOpen_others _ hn, withdrawHoldOpen_waits, releasePending_others _ hn, hy, door_setDoor_self]
    · exact hb.congr hm hc
    · rw [releasePending_others _ hn, hy, door_setDoor_self]
      exact .inr (.inl hh.1)
  · intro e h1 h2 h3 h4
    rw [idle h1]
    obtain ⟨y, hy, ht⟩ := releasePending_tests u (partner d) (by rw [hup]; exact h3)
    rw [hup] at ht
    have hb := ht.begins e h2 h4 (.inl (by rw [partner_partner, hud]; exact hx))
    have hh := hb.holds h4
    rw [hy]
    rw [withdrawHoldOpen_waits _ d (by rw [door_setDoor_self]; exact .inl hh.2)]
    rw [withdrawHoldOpen_waits _ (partner d) (by rw [door_setDoor_self]; exact .inr (.inl hh.1))]
    rw [door_setDoor_self, door_setDoor_ne _ _ hn, hud]
    exact ⟨rfl, hb.congr hm hc⟩
  · intro h1 h2 h3 h4 h5
    rw [idle (.inl h1), releasePending_quiet u _ (by rw [hup]; exact h4), withdrawHoldOpen_others _ hn]
    obtain ⟨y, hy, hw⟩ := withdrawHoldOpen_withdraws u d (by rw [hud]; exact h2)
    rw [hud] at hw
    rw [hy, door_setDoor_self, hw.begins (by rw [hup]; exact h3) hg h1 (.inl hx), if_neg h5, hds, hm]
  · intro h1 h2 h3 h4 h5 h6
    rw [idle (.inl h1), releasePending_quiet u _ (by rw [hup]; exact h3), withdrawHoldOpen_of_other u d (by rw [hud]; exact h2)]
    obtain ⟨y, hy, hw⟩ := withdrawHoldOpen_withdraws u (partner d) (by rw [hup]; exact h4)
    rw [hup] at hw
    rw [hy, door_setDoor_self, door_setDoor_ne _ _ hn, hud,
      hw.begins (by rw [partner_partner, hud]; exact hx) h5 h3 h6, hds, hm]
    exact ⟨rfl, rfl⟩

/-- Reaching SECURED from a record of the door, whose mode asks no other interlock than before (R57, R58, R63, R68). -/
theorem toSecured_secures (s : State) (d : DoorNo) (x : Door)
    (hi : (s.setDoor d x).InterlockFree d ↔ s.InterlockFree d) :
    s.Secures d (x.atRest .secured) ((s.setDoor d x).toSecured d) := by
  unfold State.toSecured
  apply checkWaiting_secures
  · simp [Door.atRest, State.door]
  · rfl
  · rfl
  · rfl
  · rfl
  · rw [← hi]
    unfold State.InterlockFree
    simp [State.door, Table.get_set_ne _ _ (partner_ne d).symm]

/-! ### BOLTING (R57) -/

/-- The test of a pending exit depends on the clock, the settings and the partner's record. -/
theorem State.TestsPending.congr {s u : State} {d : DoorNo} {x y : Door} (hm : u.uptimeMs = s.uptimeMs)
    (hc : u.settings = s.settings) (hi : u.InterlockFree d ↔ s.InterlockFree d) (h : u.TestsPending d x y) :
    s.TestsPending d x y :=
  ⟨fun hw => h.waits (by rwa [hi]), fun e h1 h2 h3 => (h.begins e h1 h2 (hi.mpr h3)).congr hm hc⟩

theorem boltingRecord_eq (s : State) (d : DoorNo) (x : Door) :
    (s.setDoor d x).boltingRecord d = s.setDoor d (s.boltingFrom d x) := by
  unfold State.boltingRecord State.modDoor State.boltingFrom
  rw [setDoor_setDoor, door_setDoor_self]
  rfl

/-- A door's own state does not enter its interlock. -/
theorem interlockFree_boltingFrom (s : State) (d : DoorNo) (x : Door) :
    (s.setDoor d (s.boltingFrom d x)).InterlockFree d ↔ (s.setDoor d x).InterlockFree d := by
  unfold State.InterlockFree
  simp [State.boltingFrom, door_setDoor_ne _ _ (partner_ne d).symm]

/-- Entering BOLTING from a record of the door, its bolt not reading THROWN (R57, R63): its pending exit is tested, and no
other door changes. -/
theorem toBolting_tests (s : State) (d : DoorNo) (x : Door) (hb : x.bolt ≠ some .thrown)
    (hi : (s.setDoor d x).InterlockFree d ↔ s.InterlockFree d) :
    ∃ y, (s.setDoor d x).toBolting d = s.setDoor d y ∧ s.TestsPending d (s.boltingFrom d x) y := by
  unfold State.toBolting State.enteredBolting
  rw [boltingRecord_eq, door_setDoor_self, if_neg (show ¬ (s.boltingFrom d x).bolt = some .thrown from hb)]
  obtain ⟨y, hy, ht⟩ := releasePending_tests (s.setDoor d (s.boltingFrom d x)) d (by rw [door_setDoor_self]; rfl)
  rw [setDoor_setDoor] at hy
  rw [door_setDoor_self] at ht
  exact ⟨y, hy, State.TestsPending.congr (u := s.setDoor d (s.boltingFrom d x)) rfl rfl
    ((interlockFree_boltingFrom s d x).trans hi) ht⟩

/-- Entering BOLTING with a bolt that reads THROWN makes the door SECURED (R51, R57, log 19). -/
theorem toBolting_secures (s : State) (d : DoorNo) (x : Door) (hb : x.bolt = some .thrown)
    (hi : (s.setDoor d x).InterlockFree d ↔ s.InterlockFree d) :
    s.Secures d (x.atRest .secured) ((s.setDoor d x).toBolting d) := by
  unfold State.toBolting State.enteredBolting
  rw [boltingRecord_eq, door_setDoor_self, if_pos (show (s.boltingFrom d x).bolt = some .thrown from hb)]
  exact toSecured_secures s d (s.boltingFrom d x) ((interlockFree_boltingFrom s d x).trans hi)

/-! ### Modes (R65) -/

theorem modeRecord_eq (s : State) (d : DoorNo) (m : DoorMode) (x : Door) : s.modeRecord d m x = s.inMode d x m := by
  unfold State.modeRecord State.inMode State.deadlineIn
  congr 1
  cases x.state <;> cases m <;> cases x.effMode <;> simp [DoorMode.timesOpen, State.after, Option.isNone_iff_eq_none]

theorem reboltsOnChange_iff (x : Door) (m : DoorMode) : x.reboltsOnChange m = true ↔ x.ReboltsOn m := by
  unfold Door.reboltsOnChange Door.ReboltsOn
  cases m <;> simp [DoorMode.rebolts, Option.isNone_iff_eq_none]

/-- A change of mode to one that a base mode gives: the record takes the mode, and then the door re-bolts, withdraws for
HOLD_OPEN, or stays. The state `w` differs from the first in pending pairs and UNCERTAIN flags only. -/
theorem changeMode_eq (s : State) (d : DoorNo) (m : DoorMode) (h1 : m ≠ .egress) (h2 : m ≠ .sealed)
    (h3 : (s.door d).effMode ≠ m) :
    ∃ w : State, w.doors = s.doors ∧ w.uptimeMs = s.uptimeMs ∧ w.settings = s.settings ∧ w.alarms = s.alarms
      ∧ s.changeMode d m =
        if (s.door d).reboltsOnChange m then (w.setDoor d (s.inMode d (s.door d) m)).toBolting d
        else (w.setDoor d (s.inMode d (s.door d) m)).withdrawHoldOpen d := by
  let s1 := s.setDoor d (s.inMode d (s.door d) m)
  let s2 := if (s.door d).effMode = .normal ∧ isOuter d then s1.setPair (roomOf d) none else s1
  let s3 := if m = .holdOpen then s2.claimUncertain (roomOf d) else s2
  have e : s.changeMode d m
      = let s4 := if (s.door d).reboltsOnChange m then s3.toBolting d else s3
        if m = .holdOpen then s4.withdrawHoldOpen d else s4 := by
    unfold State.changeMode State.modDoor
    simp only [modeRecord_eq, h1, h2, or_self, if_false]
    rfl
  have e3 : s3.doors = s1.doors ∧ s3.uptimeMs = s.uptimeMs ∧ s3.settings = s.settings ∧ s3.alarms = s.alarms := by
    simp only [s3, s2]
    split <;> split <;> exact ⟨rfl, rfl, rfl, rfl⟩
  obtain ⟨f1, f2, f3, f4⟩ := e3
  refine ⟨s3.setDoor d (s.door d), ?_, f2, f3, f4, ?_⟩
  · simp only [setDoor_doors, f1, s1, Table.set_set]
    exact Table.set_get _ _
  · have e4 : (s3.setDoor d (s.door d)).setDoor d (s.inMode d (s.door d) m) = s3 := by
      rw [setDoor_setDoor]
      have : s3.door d = s.inMode d (s.door d) m := by unfold State.door; rw [f1]; exact door_setDoor_self s d _
      rw [← this, setDoor_door]
    rw [e, e4]
    dsimp only
    by_cases hm : m = .holdOpen
    · have hr : (s.door d).reboltsOnChange m = false := by
        rw [← Bool.not_eq_true, reboltsOnChange_iff]
        rintro ⟨_, ⟨_, h | h⟩ | ⟨_, h⟩⟩
        · exact h3 (by rw [h, hm])
        · simp [hm] at h
        · exact h3 (by rw [h, hm])
      rw [if_pos hm, hr]
      rfl
    · rw [if_neg hm]
      split
      · rfl
      · rw [withdrawHoldOpen_of_other]
        have : s3.door d = s.inMode d (s.door d) m := by unfold State.door; rw [f1]; exact door_setDoor_self s d _
        rw [this]
        exact hm

/-- What reaching SECURED sets off depends on the clock, the settings, the interlock and the records of the other doors. -/
theorem State.Secures.congr {s u t : State} {d : DoorNo} {x : Door} (hm : u.uptimeMs = s.uptimeMs)
    (hc : u.settings = s.settings) (ho : ∀ e, e ≠ d → u.door e = s.door e) (hi : u.InterlockFree d ↔ s.InterlockFree d)
    (h : u.Secures d x t) : s.Secures d x t := by
  have hp : u.door (partner d) = s.door (partner d) := ho _ (partner_ne d)
  have hs : ∀ e, u.doorSettings e = s.doorSettings e := fun e => by unfold State.doorSettings; rw [hc]
  obtain ⟨a, b, c, f, g, k⟩ := h
  rw [hp] at b f g k
  rw [hm, hs] at g k
  exact ⟨fun e h1 h2 => (a e h1 h2).trans (ho e h1), b, fun e h1 h2 => (c e h1 (hi.mpr h2)).congr hm hc,
    fun e h1 h2 h3 h4 => ⟨(f e (by rwa [hi]) h2 h3 h4).1, ((f e (by rwa [hi]) h2 h3 h4).2).congr hm hc⟩, g, k⟩

theorem State.WithdrawsFor.congr {s u : State} {d : DoorNo} {x y : Door} (hm : u.uptimeMs = s.uptimeMs)
    (hc : u.settings = s.settings) (hp : u.door (partner d) = s.door (partner d)) (h : u.WithdrawsFor d x y) :
    s.WithdrawsFor d x y := by
  have es : u.doorSettings d = s.doorSettings d := by unfold State.doorSettings; rw [hc]
  obtain ⟨a, b⟩ := h
  rw [hp, hm, es] at a
  rw [hp] at b
  exact ⟨a, b⟩

/-- A mode that a base mode gives leaves the interlock to the partner, as the mode before it does. -/
theorem interlockFree_inMode (s : State) (d : DoorNo) (x : Door) (h1 : x.effMode ≠ .egress) (h2 : x.effMode ≠ .sealed)
    (h3 : (s.door d).effMode ≠ .egress) (h4 : (s.door d).effMode ≠ .sealed) :
    (s.setDoor d x).InterlockFree d ↔ s.InterlockFree d := by
  unfold State.InterlockFree
  rw [door_setDoor_self, door_setDoor_ne _ _ (partner_ne d).symm]
  simp [h1, h2, h3, h4]

/-- The mode changes of the base modes: what each makes of the door (R65, R68). -/
theorem changeMode_takes (s : State) (d : DoorNo) (m : DoorMode) (h1 : m ≠ .egress) (h2 : m ≠ .sealed)
    (h3 : (s.door d).effMode ≠ m) (h4 : (s.door d).effMode ≠ .egress) (h5 : (s.door d).effMode ≠ .sealed) :
    s.TakesMode d (s.door d) m (s.changeMode d m) := by
  obtain ⟨w, wd, wm, wc, wa, e⟩ := changeMode_eq s d m h1 h2 h3
  have we : w.door = s.door := by funext e; unfold State.door; rw [wd]
  have hi : (w.setDoor d (s.inMode d (s.door d) m)).InterlockFree d ↔ w.InterlockFree d :=
    interlockFree_inMode w d _ h1 h2 (by rw [we]; exact h4) (by rw [we]; exact h5)
  have hi' : w.InterlockFree d ↔ s.InterlockFree d := by unfold State.InterlockFree; rw [we]
  rw [e]
  refine ⟨fun h => absurd h.symm h3, fun _ hm hr => ?_, fun _ hm hr hb => ?_, fun _ hm hr hb => ?_, fun _ hm => ?_, ?_⟩
  · rw [if_neg (by rwa [reboltsOnChange_iff]), withdrawHoldOpen_of_other, door_setDoor_self]
    rw [door_setDoor_self]
    exact hm
  · rw [if_pos ((reboltsOnChange_iff _ _).mpr hr)]
    obtain ⟨y, hy, ht⟩ := toBolting_tests w d (s.inMode d (s.door d) m) hb hi
    rw [hy, door_setDoor_self]
    have hbf : w.boltingFrom d (s.inMode d (s.door d) m) = s.boltingFrom d { s.door d with effMode := m } := by
      simp only [State.boltingFrom, State.inMode, State.doorSettings, wm, wc]
    rw [hbf] at ht
    exact ht.congr wm wc hi'
  · rw [if_pos ((reboltsOnChange_iff _ _).mpr hr)]
    exact (toBolting_secures w d (s.inMode d (s.door d) m) hb hi).congr wm wc (fun e _ => congrFun we e) hi'
  · have hr : ¬ (s.door d).ReboltsOn m := by
      rintro ⟨_, ⟨_, h | h⟩ | ⟨_, h⟩⟩
      · exact h3 (by rw [h, hm])
      · simp [hm] at h
      · exact h3 (by rw [h, hm])
    rw [if_neg (by rwa [reboltsOnChange_iff])]
    obtain ⟨y, hy, hw⟩ := withdrawHoldOpen_withdraws (w.setDoor d (s.inMode d (s.door d) m)) d
      (by rw [door_setDoor_self]; exact hm)
    rw [door_setDoor_self] at hw
    rw [hy, door_setDoor_self]
    exact State.WithdrawsFor.congr (u := w.setDoor d (s.inMode d (s.door d) m)) wm wc
      (by rw [door_setDoor_ne _ _ (partner_ne d).symm, we]) hw
  · intro h e he
    rw [← congrFun we e]
    split
    · next hr =>
      rw [reboltsOnChange_iff] at hr
      have hb : (s.door d).bolt ≠ some .thrown := by
        rcases h with h | h | h
        · exact absurd h.symm h3
        · exact absurd hr h
        · exact h
      obtain ⟨y, hy, _⟩ := toBolting_tests w d (s.inMode d (s.door d) m) hb hi
      rw [hy, door_setDoor_ne _ _ he.symm]
    · rw [withdrawHoldOpen_others _ he.symm, door_setDoor_ne _ _ he.symm]

theorem withdrawHoldOpen_alarms (s : State) (d : DoorNo) : (s.withdrawHoldOpen d).alarms = s.alarms := by
  by_cases hm : (s.door d).effMode = .holdOpen
  · obtain ⟨y, hy, _⟩ := withdrawHoldOpen_withdraws s d hm
    rw [hy]
    rfl
  · rw [withdrawHoldOpen_of_other s d hm]

theorem releasePending_alarms (s : State) (d : DoorNo) : (s.releasePending d).alarms = s.alarms :=
  releasePending_only s d .alarms (by decide)

theorem causeEnded_endCause (s : State) (k : AlarmKey) : CauseEnded k (s.endCause k) := by
  intro i a ha hk
  rw [show (s.endCause k).alarm i = (s.alarm i).map fun a => if a.key = k then a.endCause else a from
    Table.get_map _ _ _] at ha
  cases hs : s.alarm i with
  | none => rw [hs] at ha; cases ha
  | some b =>
    rw [hs] at ha
    cases ha
    dsimp only at hk ⊢
    by_cases hb : b.key = k
    · rw [if_pos hb]
      cases hc : b.cause <;> simp [Alarm.endCause]
    · rw [if_neg hb] at hk
      exact absurd hk hb

theorem CauseEnded.congr {k : AlarmKey} {s t : State} (h : t.alarms = s.alarms) (hs : CauseEnded k s) : CauseEnded k t := by
  unfold CauseEnded State.alarm at *
  rwa [h]

theorem toSecured_causeEnded (s : State) (d : DoorNo) : CauseEnded (keyForced d) (s.toSecured d) := by
  unfold State.toSecured
  exact CauseEnded.congr (checkWaiting_only _ d .alarms (by decide)) (causeEnded_endCause _ _)

theorem toBolting_causeEnded (s : State) (d : DoorNo) (h : (s.door d).bolt = some .thrown) :
    CauseEnded (keyForced d) (s.toBolting d) := by
  have e : ((s.boltingRecord d).door d).bolt = some .thrown := by
    unfold State.boltingRecord State.modDoor
    rw [door_setDoor_self]
    exact h
  unfold State.toBolting State.enteredBolting
  rw [if_pos e]
  exact toSecured_causeEnded _ d

/-- A change of mode ends the cause of FORCED_DOOR where it makes the door SECURED, and touches no alarm otherwise. -/
theorem changeMode_alarms (s : State) (d : DoorNo) (m : DoorMode) (h1 : m ≠ .egress) (h2 : m ≠ .sealed)
    (h3 : (s.door d).effMode ≠ m) :
    (¬ (s.door d).ReboltsOn m ∨ (s.door d).bolt ≠ some .thrown → (s.changeMode d m).alarms = s.alarms)
      ∧ ((s.door d).ReboltsOn m → (s.door d).bolt = some .thrown → CauseEnded (keyForced d) (s.changeMode d m)) := by
  obtain ⟨w, wd, wm, wc, wa, e⟩ := changeMode_eq s d m h1 h2 h3
  rw [e]
  refine ⟨fun h => ?_, fun hr hb => ?_⟩
  · split
    · next hr =>
      have hb : (s.door d).bolt ≠ some .thrown := h.resolve_left (not_not_intro ((reboltsOnChange_iff _ _).mp hr))
      unfold State.toBolting State.enteredBolting State.boltingRecord State.modDoor
      rw [setDoor_setDoor, door_setDoor_self, door_setDoor_self, if_neg (by exact hb)]
      exact (releasePending_alarms _ d).trans wa
    · exact (withdrawHoldOpen_alarms _ d).trans wa
  · rw [if_pos ((reboltsOnChange_iff _ _).mpr hr)]
    exact toBolting_causeEnded _ d (by rw [door_setDoor_self]; exact hb)

/-- What a mode change makes of a record written into the state holds of the state before it, in the same mode. -/
theorem State.TakesMode.of_setDoor {s t : State} {d : DoorNo} {x : Door} {m : DoorMode} (he : x.effMode = (s.door d).effMode)
    (h : (s.setDoor d x).TakesMode d x m t) : s.TakesMode d x m t := by
  have hp : (s.setDoor d x).door (partner d) = s.door (partner d) := door_setDoor_ne _ _ (partner_ne d).symm
  have hi : (s.setDoor d x).InterlockFree d ↔ s.InterlockFree d := by
    unfold State.InterlockFree
    rw [door_setDoor_self, hp, he]
  have others : ∀ {P : Prop}, (P → ∀ e, e ≠ d → t.door e = (s.setDoor d x).door e) →
      P → ∀ e, e ≠ d → t.door e = s.door e := fun k hP e hne => by rw [k hP e hne, door_setDoor_ne _ _ hne.symm]
  have hm : (s.setDoor d x).uptimeMs = s.uptimeMs := rfl
  have hc : (s.setDoor d x).settings = s.settings := rfl
  exact ⟨h.kept, h.changed, fun h1 h2 h3 h4 => State.TestsPending.congr hm hc hi (h.rebolts h1 h2 h3 h4),
    fun h1 h2 h3 h4 => State.Secures.congr hm hc (fun e he => door_setDoor_ne _ _ he.symm) hi (h.secured h1 h2 h3 h4),
    fun h1 h2 => State.WithdrawsFor.congr hm hc hp (h.holdOpen h1 h2), others h.others⟩

end Sys2Proof.Machine
end

