-- ==== Sys2Proof/Laws/PerInstr.lean ====
section
/-! SUPPORT. One lemma per command: the payload that a request's frame is written with has the length that the table of
R168 gives its code. -/

namespace Sys2Proof.Laws.PayloadCount

/-- The payload of the command's frame has the length that its code's table entry gives (R168). -/
def Statement (i : Instr) : Prop :=
  ∀ r, i.request? = some r → payloadCount r.1 = some r.2.2.length

/-- A command that is no request has no frame. -/
theorem of_none {i : Instr} (h : i.request? = none) : Statement i := by
  intro r hr
  rw [h] at hr
  exact absurd hr (by simp)

/-- A request's payload has the length that its code's table entry gives. -/
theorem of_some {i : Instr} {r : Byte × BitVec 16 × List Byte} (h : i.request? = some r)
    (hc : payloadCount r.1 = some r.2.2.length) : Statement i := by
  intro q hq
  rw [h] at hq
  cases hq
  exact hc

theorem powerOn (cause : PowerOnCause) : Statement (.powerOn cause) :=
  of_none rfl

theorem resetInput : Statement .resetInput :=
  of_none rfl

theorem imageLoad : Statement .imageLoad :=
  of_none rfl

theorem supplyLow : Statement .supplyLow :=
  of_none rfl

theorem supplyRestart : Statement .supplyRestart :=
  of_none rfl

theorem keyValidated (on : Bool) : Statement (.keyValidated on) :=
  of_none rfl

theorem uptimeSecond : Statement .uptimeSecond :=
  of_none rfl

theorem holdLimitReached (zone : Room) : Statement (.holdLimitReached zone) :=
  of_none rfl

theorem minuteBoundary : Statement .minuteBoundary :=
  of_none rfl

theorem referenceEdge : Statement .referenceEdge :=
  of_none rfl

theorem referenceGap : Statement .referenceGap :=
  of_none rfl

theorem provingPeriodEnd : Statement .provingPeriodEnd :=
  of_none rfl

theorem commitCompletion (verified : Bool) : Statement (.commitCompletion verified) :=
  of_none rfl

theorem windowStart : Statement .windowStart :=
  of_none rfl

theorem windowEnd : Statement .windowEnd :=
  of_none rfl

theorem windowDiscard (first : Byte) : Statement (.windowDiscard first) :=
  of_none rfl

theorem badFrame (frame : List Byte) : Statement (.badFrame frame) :=
  of_none rfl

theorem readStatus : Statement .readStatus :=
  of_some rfl rfl

theorem takeChanges : Statement .takeChanges :=
  of_some rfl rfl

theorem setAttention (setMask clearMask : Byte) : Statement (.setAttention setMask clearMask) :=
  of_some rfl rfl

theorem restart : Statement .restart :=
  of_some rfl rfl

theorem findPermit (credential : Credential) : Statement (.findPermit credential) :=
  of_some rfl rfl

theorem readPermit (index : BitVec 16) : Statement (.readPermit index) :=
  of_some rfl rfl

theorem writePermit (index : BitVec 16) (fields : PermitFields) : Statement (.writePermit index fields) :=
  of_some rfl rfl

theorem amendPermit (index : BitVec 16) (fields : AmendFields) : Statement (.amendPermit index fields) :=
  of_some rfl rfl

theorem retirePermit (index : BitVec 16) : Statement (.retirePermit index) :=
  of_some rfl rfl

theorem readRoster (index : BitVec 16) : Statement (.readRoster index) :=
  of_some rfl rfl

theorem readOccupant (index : BitVec 16) : Statement (.readOccupant index) :=
  of_some rfl rfl

theorem retireOccupant (index : BitVec 16) : Statement (.retireOccupant index) :=
  of_some rfl rfl

theorem confirmVacant (index : BitVec 16) : Statement (.confirmVacant index) :=
  of_some rfl rfl

theorem grantEntry (index : BitVec 16) (permit : BitVec 16) : Statement (.grantEntry index permit) :=
  of_some rfl rfl

theorem releaseExit (index : BitVec 16) : Statement (.releaseExit index) :=
  of_some rfl rfl

theorem readDoor (index : BitVec 16) : Statement (.readDoor index) :=
  of_some rfl rfl

theorem setDoorMode (index : BitVec 16) (mode : Byte) : Statement (.setDoorMode index mode) :=
  of_some rfl rfl

theorem resetDoor (index : BitVec 16) : Statement (.resetDoor index) :=
  of_some rfl rfl

theorem clearCounts (index : BitVec 16) : Statement (.clearCounts index) :=
  of_some rfl rfl

theorem readZone (index : BitVec 16) : Statement (.readZone index) :=
  of_some rfl rfl

theorem isolateZone (index : BitVec 16) : Statement (.isolateZone index) :=
  of_some rfl rfl

theorem restoreZone (index : BitVec 16) : Statement (.restoreZone index) :=
  of_some rfl rfl

theorem resetZone (index : BitVec 16) : Statement (.resetZone index) :=
  of_some rfl rfl

theorem readAlarm (index : BitVec 16) : Statement (.readAlarm index) :=
  of_some rfl rfl

theorem acknowledgeAlarm (index : BitVec 16) : Statement (.acknowledgeAlarm index) :=
  of_some rfl rfl

theorem clearAlarm (index : BitVec 16) : Statement (.clearAlarm index) :=
  of_some rfl rfl

theorem clearLostCount : Statement .clearLostCount :=
  of_some rfl rfl

theorem readClock : Statement .readClock :=
  of_some rfl rfl

theorem setClock (minute : BitVec 24) (second : Byte) : Statement (.setClock minute second) :=
  of_some rfl rfl

theorem readWindow (index : BitVec 16) : Statement (.readWindow index) :=
  of_some rfl rfl

theorem writeWindow (index : BitVec 16) (fields : WindowFields) : Statement (.writeWindow index fields) :=
  of_some rfl rfl

theorem readStation (index : BitVec 16) : Statement (.readStation index) :=
  of_some rfl rfl

theorem readSetting (index : BitVec 16) : Statement (.readSetting index) :=
  of_some rfl rfl

theorem writeSetting (index : BitVec 16) (value : BitVec 32) : Statement (.writeSetting index value) :=
  of_some rfl rfl

theorem commitSettings : Statement .commitSettings :=
  of_some rfl rfl

theorem poll (loop : LoopNo) : Statement (.poll loop) :=
  of_none rfl

theorem goodAnswer (station : StationId) (answer : StationAnswer) : Statement (.goodAnswer station answer) :=
  of_none rfl

theorem missedAnswer (station : StationId) (cause : MissCause) : Statement (.missedAnswer station cause) :=
  of_none rfl

theorem presentationDecided (loop : LoopNo) : Statement (.presentationDecided loop) :=
  of_none rfl

theorem pairWindowEnd (room : Room) : Statement (.pairWindowEnd room) :=
  of_none rfl

theorem travelLimit (door : DoorNo) : Statement (.travelLimit door) :=
  of_none rfl

theorem lapse (door : DoorNo) : Statement (.lapse door) :=
  of_none rfl

theorem heldOpenLimit (door : DoorNo) : Statement (.heldOpenLimit door) :=
  of_none rfl

theorem reboltDelayEnd (door : DoorNo) : Statement (.reboltDelayEnd door) :=
  of_none rfl

theorem countdownEnd (zone : Room) : Statement (.countdownEnd zone) :=
  of_none rfl

theorem pulseEnd (zone : Room) : Statement (.pulseEnd zone) :=
  of_none rfl

theorem confirmEnd (zone : Room) : Statement (.confirmEnd zone) :=
  of_none rfl

theorem watchDeadline (slot : Slot) : Statement (.watchDeadline slot) :=
  of_none rfl

theorem loneWorkerRepeat (slot : Slot) : Statement (.loneWorkerRepeat slot) :=
  of_none rfl

theorem answerSent : Statement .answerSent :=
  of_none rfl

theorem supplyBelowRetention : Statement .supplyBelowRetention :=
  of_none rfl

end Sys2Proof.Laws.PayloadCount
end

