-- ==== Sys2Proof/Laws/Stations.lean ====
section
/-! SUPPORT. What a write of the station table does (R79): which addresses leave their service, in the words of
Safety.lean, and what telling their old owners makes of doors, stations, notes and alarms. -/

namespace Sys2Proof.Machine

/-! ### The poll cycle and the addresses that leave service (R79, R80) -/

/-- An address stands at the slot of its loop. -/
theorem address_slotOf (u : StationId) : address (loopOf u) (slotOf u) = u := by
  apply Fin.ext
  simp only [address, loopOf, slotOf]
  omega

theorem loopOf_address (l : LoopNo) (k : Fin 16) : loopOf (address l k) = l := by
  apply Fin.ext
  simp only [address, loopOf]
  omega

theorem slotOf_address (l : LoopNo) (k : Fin 16) : slotOf (address l k) = k := by
  apply Fin.ext
  simp only [address, slotOf]
  omega

/-- Within a loop the slots are ordered as the addresses. -/
theorem slotOf_lt {u v : StationId} (h : loopOf v = loopOf u) : slotOf v < slotOf u ↔ v < u := by
  have h := congrArg Fin.val h
  simp only [loopOf, slotOf, Fin.lt_def] at *
  omega

theorem inCycle_iff (table : Table 64 StationEntry) (u : StationId) : inCycle table u = true ↔ Polled table.get u := by
  unfold inCycle cycleEnd
  rw [decide_eq_true_iff]
  cases h : (List.finRange 16).find? fun k => (table.get (address (loopOf u) k)).last with
  | none =>
    rw [List.find?_eq_none] at h
    simp only [List.mem_finRange, true_implies, Bool.not_eq_true] at h
    refine ⟨fun _ v hv _ => ?_, fun _ => ?_⟩
    · have hl := h (slotOf v)
      rwa [← hv, address_slotOf] at hl
    · exact Fin.le_last (slotOf u)
  | some k =>
    have hk : (table.get (address (loopOf u) k)).last = true := by simpa using List.find?_some h
    have hm : ∀ j < k, (table.get (address (loopOf u) j)).last = false := by
      intro j hj
      rw [List.find?_eq_some_iff_getElem] at h
      obtain ⟨_, i, hi, hik, hl⟩ := h
      simp only [List.getElem_finRange, Bool.not_eq_true'] at hik hl
      have hik := congrArg Fin.val hik
      simp only [Fin.val_cast] at hik
      simpa using hl j.val (by omega)
    rw [Option.getD_some]
    refine ⟨fun hle v hv hlt => ?_, fun hp => Fin.not_lt.mp fun hn => ?_⟩
    · have hl := hm (slotOf v) (Fin.lt_of_lt_of_le ((slotOf_lt hv).mpr hlt) hle)
      rwa [← hv, address_slotOf] at hl
    · have hl := hp (address (loopOf u) k) (loopOf_address _ k)
        ((slotOf_lt (loopOf_address _ k)).mp (by rwa [slotOf_address]))
      rw [hk] at hl
      cases hl

theorem tableAfter_get (s : State) (st : StationId) (e : StationEntry) :
    (tableAfter s.settings.stations st e).get = s.entryAfter st e := by
  funext u
  simp [tableAfter, tableEntry, State.entryAfter, State.entry]

theorem mem_outOfService (s : State) (st : StationId) (e : StationEntry) (u : StationId) :
    u ∈ outOfService s.settings.stations (tableAfter s.settings.stations st e) ↔ s.LeavesService st e u := by
  have h1 := inCycle_iff s.settings.stations u
  have h2 := inCycle_iff (tableAfter s.settings.stations st e) u
  rw [tableAfter_get] at h2
  unfold outOfService leavesService State.LeavesService
  rw [← h2, ← (show s.settings.stations.get = s.entry from rfl), ← h1, tableAfter_get]
  simp only [List.mem_filter, List.mem_finRange, true_and, Bool.or_eq_true, Bool.and_eq_true, decide_eq_true_iff,
    Bool.not_eq_true', Bool.not_eq_true, and_assoc]
  exact or_congr_left ne_comm

theorem servedElsewhere_iff (s : State) (st : StationId) (r : Role) :
    servedElsewhere s.settings.stations st r = true ↔ s.ServedElsewhere st r := by
  unfold servedElsewhere State.ServedElsewhere
  cases r <;> simp [Role.exclusive, State.entry]

/-- The entry held already takes no address out of service. -/
theorem not_leavesService_same (s : State) (st u : StationId) : ¬ s.LeavesService st (s.entry st) u := by
  have hr : (s.entryAfter st (s.entry st) u).role = (s.entry u).role := by
    unfold State.entryAfter
    split
    · next h => rw [h]
    · split <;> rfl
  have hl : ∀ v, (s.entry v).last = false → (s.entryAfter st (s.entry st) v).last = false := by
    intro v hv
    unfold State.entryAfter
    split
    · next h => rwa [h] at hv
    · split
      · rfl
      · exact hv
  rintro (h | ⟨_, h, hn⟩)
  · exact h hr
  · exact hn fun v h1 h2 => hl v (h v h1 h2)

/-! ### The old owners (R59, R79) -/

/-- The door that a role serves, if it serves one, may lose its station: it is SECURED or in FAULT STATION_LOST, and no
grant is outstanding (R79). -/
def State.MayLose (s : State) (r : Role) : Prop :=
  ∀ d, r = .door d → ((s.door d).state = .secured ∨ (s.door d).state = .fault .stationLost) ∧ (s.door d).grant = none

/-- The record of such a door without its station. -/
def Door.stationGone (x : Door) : Door := if x.state = .secured then x.atRest (.fault .stationLost) else x

@[simp] theorem stationGone_twice (x : Door) : x.stationGone.stationGone = x.stationGone := by
  unfold Door.stationGone
  by_cases h : x.state = .secured <;> simp [h, Door.atRest]

theorem enterFault_stationLost (s : State) (d : DoorNo)
    (h : (s.door d).state = .secured ∨ (s.door d).state = .fault .stationLost) (hg : (s.door d).grant = none) :
    s.enterFault d .stationLost = s.setDoor d (s.door d).stationGone := by
  rcases h with h | h
  · have h1 : s.disposeGrant d = s := by simp [State.disposeGrant, h, State.endGrant, hg]
    have h2 : (s.faultRecord d .stationLost).releasePending d = s.faultRecord d .stationLost := by
      unfold State.releasePending State.canBegin
      simp [State.faultRecord, State.door]
      split <;> rfl
    simp only [State.enterFault, h, DoorState.entersFault, if_true, h1, h2, Door.stationGone]
    rfl
  · have hg : (s.door d).stationGone = s.door d := by simp [Door.stationGone, h]
    rw [hg]
    unfold State.setDoor State.enterFault
    rw [h]
    simp only [DoorState.entersFault, State.door, Table.set_get]
    rfl

/-- Telling the old owner changes the door of a door role only, to its record without the station. -/
theorem ownerLost_doors (s : State) (r : Role) (h : s.MayLose r) :
    ∃ ds, s.ownerLost r = { s with doors := ds }
      ∧ ∀ d, ds.get d = if r = .door d then (s.door d).stationGone else s.door d := by
  cases r with
  | door e =>
    obtain ⟨h1, h2⟩ := h e rfl
    refine ⟨_, enterFault_stationLost s e h1 h2, fun d => ?_⟩
    rw [Table.get_set]
    by_cases he : e = d
    · rw [if_pos he, if_pos (by rw [he]), he]
    · rw [if_neg he, if_neg (by simpa using he)]
      rfl
  | zone _ | muster | unused => exact ⟨s.doors, rfl, fun d => (if_neg (by simp)).symm⟩

/-- What a write makes of the addresses of a list that leave their service (R79): their records and notes stand as at
power-on, their doors are without a station, the cause of a STATION_LOST that names one ends, and nothing else changes but
that a cause of an alarm may end. -/
structure State.Left (s : State) (l : List StationId) (t : State) : Prop where
  rest : ∃ ds ss ns as, t = { s with doors := ds, stations := ss, notes := ns, alarms := as }
  door : ∀ d, t.door d = if ∃ u ∈ l, (s.entry u).role = .door d then (s.door d).stationGone else s.door d
  station : ∀ u, t.station u = if u ∈ l then Station.atPowerOn else s.station u
  note : ∀ u, t.note u = if u ∈ l then .clear else s.note u
  ended : ∀ u ∈ l, ∀ i a, t.alarm i = some a → a.key.kind = .stationLost → a.key.station = some u →
    a.cause ≠ some true
  alarms : ∀ i b, t.alarm i = some b → ∃ a, s.alarm i = some a ∧ b.key = a.key ∧ (b.cause = some true → b = a)

theorem leaveService_left (s : State) (v : StationId) (h : s.MayLose (s.entry v).role) :
    s.Left [v] (s.leaveService v) := by
  obtain ⟨ds, e, hd⟩ := ownerLost_doors s _ h
  have hs : s.leaveService v =
      { s with
        doors := ds
        stations := s.stations.set v Station.atPowerOn
        notes := s.notes.set v .clear
        alarms := s.alarms.map fun x => x.map fun a =>
          if a.key.kind = .stationLost ∧ a.key.station = some v then a.endCause else a } := by
    unfold State.leaveService
    rw [e]
    rfl
  have ha : ∀ i b, (s.leaveService v).alarm i = some b → ∃ a, s.alarm i = some a
      ∧ (if a.key.kind = .stationLost ∧ a.key.station = some v then a.endCause else a) = b := by
    intro i b hb
    rw [hs] at hb
    exact Option.map_eq_some_iff.mp ((Table.get_map _ _ _).symm.trans hb)
  have hc : ∀ a : Alarm, a.endCause.cause ≠ some true := fun a => by cases hc : a.cause <;> simp [Alarm.endCause, hc]
  refine ⟨⟨_, _, _, _, hs⟩, fun d => ?_, fun u => ?_, fun u => ?_, fun u hu i b hb h1 h2 => ?_, fun i b hb => ?_⟩
  · rw [hs]
    refine (hd d).trans ?_
    simp
  · rw [hs]
    refine (Table.get_set s.stations v u Station.atPowerOn).trans ?_
    simp only [List.mem_singleton, eq_comm (a := v)]
    rfl
  · rw [hs]
    refine (Table.get_set s.notes v u .clear).trans ?_
    simp only [List.mem_singleton, eq_comm (a := v)]
    rfl
  · obtain ⟨a, _, rfl⟩ := ha i b hb
    rw [List.mem_singleton] at hu
    subst hu
    split
    · exact hc a
    · next hn =>
      rw [if_neg hn] at h1 h2
      exact absurd ⟨h1, h2⟩ hn
  · obtain ⟨a, h1, rfl⟩ := ha i b hb
    refine ⟨a, h1, ?_, ?_⟩
    · split <;> rfl
    · split
      · exact fun h2 => absurd h2 (hc a)
      · exact fun _ => rfl

theorem State.MayLose.stays {s t : State} {v : StationId} {r : Role} (h : s.MayLose r) (k : s.Left [v] t) :
    t.MayLose r := by
  intro d hd
  have hs := h d hd
  rw [k.door]
  split
  · unfold Door.stationGone
    split
    · exact ⟨.inr rfl, rfl⟩
    · exact hs
  · exact hs

theorem State.Left.cons {s t w : State} {v : StationId} {l : List StationId} (h : s.Left [v] t) (k : t.Left l w) :
    s.Left (v :: l) w := by
  obtain ⟨ds, ss, ns, as, e⟩ := h.rest
  obtain ⟨ds', ss', ns', as', e'⟩ := k.rest
  have he : ∀ u, t.entry u = s.entry u := fun u => by rw [e]; rfl
  refine ⟨⟨ds', ss', ns', as', by rw [e', e]⟩, fun d => ?_, fun u => ?_, fun u => ?_, fun u hu i b hb hk hs => ?_,
    fun i b hb => ?_⟩
  · rw [k.door, h.door]
    simp only [he, List.mem_cons, List.not_mem_nil, or_false, exists_eq_left, exists_eq_or_imp]
    by_cases h1 : (s.entry v).role = .door d <;> by_cases h2 : ∃ u ∈ l, (s.entry u).role = .door d <;> simp [h1, h2]
  · rw [k.station, h.station]
    by_cases h1 : u ∈ l <;> simp [h1]
  · rw [k.note, h.note]
    by_cases h1 : u ∈ l <;> simp [h1]
  · rcases List.mem_cons.mp hu with h1 | h1
    · intro hc
      obtain ⟨a, ha, hkey, heq⟩ := k.alarms i b hb
      exact h.ended u (by simp [h1]) i a ha (by rwa [← hkey]) (by rwa [← hkey]) (by rwa [← heq hc])
    · exact k.ended u h1 i b hb hk hs
  · obtain ⟨a, ha, hkey, heq⟩ := k.alarms i b hb
    obtain ⟨x, hx, hkey', heq'⟩ := h.alarms i a ha
    exact ⟨x, hx, hkey.trans hkey', fun hc => (heq hc).trans (heq' (by rwa [← heq hc]))⟩

/-- The addresses of a list leave their service (R79). -/
theorem leaveService_fold (l : List StationId) (s : State) (h : ∀ u ∈ l, s.MayLose (s.entry u).role) :
    s.Left l (l.foldl State.leaveService s) := by
  induction l generalizing s with
  | nil =>
    exact ⟨⟨_, _, _, _, rfl⟩, fun d => by simp, fun u => by simp, fun u => by simp, fun u hu => absurd hu (by simp),
      fun i b hb => ⟨b, hb, rfl, fun _ => rfl⟩⟩
  | cons v l ih =>
    have hv := leaveService_left s v (h v List.mem_cons_self)
    refine hv.cons (ih (s.leaveService v) fun u hu => ?_)
    obtain ⟨ds, ss, ns, as, e⟩ := hv.rest
    have he : (s.leaveService v).entry u = s.entry u := by rw [e]; rfl
    rw [he]
    exact (h u (List.mem_cons_of_mem _ hu)).stays hv

/-- WRITE SETTING of a station entry whose checks are passed (R79): the addresses that leave their service are told, and the
table holds the new entries. -/
theorem writeStation_left (s : State) (st : StationId) (e : StationEntry)
    (h : ∀ u, s.LeavesService st e u → s.MayLose (s.entry u).role) :
    ∃ t, s.Left (outOfService s.settings.stations (tableAfter s.settings.stations st e)) t
      ∧ s.writeStation st e
        = { t with settings := { s.settings with stations := tableAfter s.settings.stations st e } } := by
  have hl := leaveService_fold (outOfService s.settings.stations (tableAfter s.settings.stations st e)) s
    fun u hu => h u ((mem_outOfService s st e u).mp hu)
  obtain ⟨ds, ss, ns, as, ht⟩ := hl.rest
  refine ⟨_, hl, ?_⟩
  unfold State.writeStation
  dsimp only
  rw [ht]

end Sys2Proof.Machine
end

