-- ==== Sys2Proof/Machine/LoopFrames.lean ====
section
/-! DEFINITION. The bytes of the field loops (R81, R82, 11 "Field loop frames"): a poll as it is sent, an answer as a
station sends it, and the class the loop controller gives the bytes of a slot time. -/

namespace Sys2Proof.Machine

/-! ### Polls (R81) -/

/-- The handshake byte of a poll (11). -/
def PollHandshake.code : PollHandshake → Byte
  | .none => 0
  | .hold => 1
  | .ack false _ => 2
  | .ack true _ => 3

/-- The result byte and the reason byte that go with an ACK (11). -/
def Decision.bytes : Decision → List Byte
  | .grant => [1, 0]
  | .wait => [2, 0]
  | .deny r => [3, byte r.code]

/-- The result and reason bytes of a poll: 00h without ACK (R81, 11). -/
def PollHandshake.resultBytes : PollHandshake → List Byte
  | .none | .hold => [0, 0]
  | .ack _ d => d.bytes

/-- The seven bytes of a poll (11). -/
def Poll.toBytes (p : Poll) : List Byte :=
  withCheck ([byte p.slot.val, ~~~byte p.slot.val, p.output, p.handshake.code] ++ p.handshake.resultBytes)

/-! ### Answers (R82) -/

/-- The face bits of the presentation control (11). -/
def faceCode : Face → Nat
  | .entry => 1 | .exit => 2 | .checkIn => 3

/-- The face of the two face bits; 00 is no presentation. -/
def face? (v : BitVec 2) : Option Face :=
  match v.toNat with
  | 1 => some .entry
  | 2 => some .exit
  | 3 => some .checkIn
  | _ => none

/-- The presentation control of a presentation (11). -/
def presentationControl (p : Presentation) : Byte :=
  byte (faceCode p.face + 4 * p.mark.toNat + 8 * p.pin.isSome.toNat)

/-- Bytes 2 to 7 of an answer; 0 without a presentation (11). -/
def presentationBytes (p : Option Presentation) : List Byte :=
  match p with
  | none => [0, 0, 0, 0, 0, 0]
  | some q => [presentationControl q] ++ bytes24 q.credential ++ bytes16 (q.pin.getD 0)

/-- The nine bytes of an answer (11). -/
def answerBytes (slot : Fin 16) (a : StationAnswer) : List Byte :=
  withCheck ([byte slot.val, a.code] ++ presentationBytes a.presentation)

/-- The presentation that bytes 2 to 7 of an answer carry (11). Bits 4 to 7 of the control are not read. With
bit 3 clear there is no PIN and its two bytes are not read, and with face 00 no other byte is (the model's choice,
log 38). -/
def presentation? (control c0 c1 c2 p0 p1 : Byte) : Option Presentation :=
  (face? (control.extractLsb' 0 2)).map fun f =>
    { face := f
      credential := be24 c0 c1 c2
      pin := if control.getLsbD 3 then some (be16 p0 p1) else none
      mark := control.getLsbD 2 }

/-- What the loop controller makes of a slot time (R82): an unused slot's answer has no class. -/
inductive SlotClass where
  | none
  | good (a : StationAnswer)
  | missed (c : MissCause)
deriving DecidableEq, Repr

/-- A complete answer judged by check byte, echo and input code (R82). -/
def judgeAnswer (role : Role) (slot : Fin 16) (frame : List Byte) (echo : Byte) (a : StationAnswer) : SlotClass :=
  if byteSum frame ≠ 0 then .missed .badCheck
  else if echo ≠ byte slot.val then .missed .wrongEcho
  else if codeListed role a.code then .good a
  else .missed .unlistedCode

/-- The class of the bytes taken within the answer window (R82). More than nine bytes are a missed answer, named late (the
model's choice, log 39). -/
def classify (role : Role) (slot : Fin 16) (bytes : List Byte) : SlotClass :=
  if role = .unused then .none
  else
    match bytes with
    | [] => .missed .absent
    | [echo, code, control, c0, c1, c2, p0, p1, check] =>
      judgeAnswer role slot [echo, code, control, c0, c1, c2, p0, p1, check] echo
        ⟨code, presentation? control c0 c1 c2 p0 p1⟩
    | _ => .missed .late

/-- The command that a slot time's bytes make for the station polled (R82). -/
def SlotClass.command (t : StationId) : SlotClass → Option Instr
  | .none => Option.none
  | .good a => some (.goodAnswer t a)
  | .missed c => some (.missedAnswer t c)

end Sys2Proof.Machine
end

