-- ==== Sys2Proof/Machine/StationSide.lean ====
section
/-! DEFINITION. The station side of the field loops as far as the HN16 relies on it (R81, R88, R94): what a station
does with a poll, with a card, and when it hears no poll. Stations are other agents, so this stands outside State
(log 26). -/

namespace Sys2Proof.Machine

/-- The three kinds of station device. -/
inductive StationKind where
  | door | zone | muster
deriving DecidableEq, Repr

/-- What a station keeps (R81, R88, R94). `silence` is the time in milliseconds since its last valid poll. -/
structure FieldStation where
  slot : Fin 16
  kind : StationKind
  failRelease : Bool
  output : Byte
  lastMark : Bool
  repeating : Option Presentation
  shown : Option Decision
  silence : Nat
deriving DecidableEq, Repr

/-- What a station reads of a poll (11). -/
structure HeardPoll where
  output : Byte
  handshake : Byte
  result : Byte
  reason : Byte
deriving DecidableEq, Repr

/-- A poll is valid at slot s when its address is s, the complement agrees and the check byte is correct (R81). -/
def hearPoll (slot : Fin 16) (bytes : List Byte) : Option HeardPoll :=
  match bytes with
  | [a, n, o, h, r, e, c] =>
    if a = byte slot.val ∧ n = ~~~a ∧ byteSum [a, n, o, h, r, e, c] = 0 then some ⟨o, h, r, e⟩ else none
  | _ => none

/-- The reason of a code (11). -/
def reason? (b : Byte) : Option Reason :=
  match b.toNat with
  | 0x01 => some .inUse | 0x02 => some .duplicate | 0x03 => some .wrongState | 0x04 => some .notNormal
  | 0x05 => some .detectorActive | 0x06 => some .stationLost | 0x07 => some .interlock | 0x08 => some .zoneState
  | 0x09 => some .timeUnset | 0x0A => some .unknown | 0x0B => some .suspended | 0x0C => some .expired
  | 0x0D => some .usedUp | 0x0E => some .notPermitted | 0x0F => some .hours | 0x10 => some .pinWrong
  | 0x11 => some .pinLocked | 0x12 => some .zoneAlarm | 0x13 => some .doorMode | 0x14 => some .alreadyInside
  | 0x15 => some .roomFull | 0x16 => some .rosterFull | 0x17 => some .doorBusy | 0x18 => some .escortNeeded
  | 0x19 => some .pairNeeded | 0x1A => some .notInVestibule | 0x1B => some .notOnRoster
  | _ => none

/-- The decision of a result byte and a reason byte (11). -/
def decision? (result reason : Byte) : Option Decision :=
  match result.toNat with
  | 1 => some .grant
  | 2 => some .wait
  | 3 => (reason? reason).map .deny
  | _ => none

/-- The mark that a poll's ACK carries, if it carries one (11). -/
def HeardPoll.ackMark (p : HeardPoll) : Option Bool :=
  match p.handshake.toNat with
  | 2 => some false
  | 3 => some true
  | _ => none

/-- The station takes an ACK whose mark is that of the presentation it repeats, and shows the result; it ignores any
other (R88). -/
def FieldStation.takeAck (x : FieldStation) (p : HeardPoll) : FieldStation :=
  match x.repeating, p.ackMark with
  | some q, some m =>
    if q.mark = m then { x with repeating := none, shown := decision? p.result p.reason } else x
  | _, _ => x

/-- A station at a poll: it takes a valid poll's outputs at once and acts on its handshake; it ignores any other poll
(R81). -/
def FieldStation.onPoll (x : FieldStation) (bytes : List Byte) : FieldStation :=
  match hearPoll x.slot bytes with
  | none => x
  | some p => { x with output := p.output, silence := 0 }.takeAck p

/-- The answer of a station to a valid poll: its inputs and the presentation it repeats (R81, R88). -/
def FieldStation.answer (x : FieldStation) (code : Byte) : StationAnswer := ⟨code, x.repeating⟩

/-- A new card is given the mark opposite to that of the previous presentation (R88). -/
def FieldStation.newCard (x : FieldStation) (f : Face) (c : Credential) (pin : Option (BitVec 16)) : FieldStation :=
  { x with repeating := some ⟨f, c, pin, !x.lastMark⟩, lastMark := !x.lastMark }

/-- A card withdrawn before its ACK: the station stops placing the presentation (R88). -/
def FieldStation.withdrawCard (x : FieldStation) : FieldStation := { x with repeating := none }

/-- The outputs of the fail state (R94): the drive as strapped and the buzzer off at a door station; the fire outputs
and the sounder off at a zone station; indicator and beacon kept. -/
def FieldStation.failOutput (x : FieldStation) : Byte :=
  match x.kind with
  | .door => (x.output &&& 0x06) ||| (if x.failRelease then 1 else 0)
  | .zone => x.output &&& 0x04
  | .muster => x.output

/-- The fail state (R94): the presentation is discarded. -/
def FieldStation.failState (x : FieldStation) : FieldStation :=
  { x with output := x.failOutput, repeating := none }

/-- Time without a valid poll: at 500 ms the station takes its fail state (R94). -/
def FieldStation.pass (x : FieldStation) (ms : Nat) : FieldStation :=
  let y := { x with silence := x.silence + ms }
  if x.silence < 500 ∧ 500 ≤ y.silence then y.failState else y

end Sys2Proof.Machine
end

