-- ==== Sys2Proof/WellFormed.lean ====
section
/-! DEFINITION. What a command's operands must satisfy for it to be the event it names. `exec` is total: a command
that fails its check has the effect its meaning gives it, which is none for a frame or byte that does not fit. -/

namespace Sys2Proof

/-- A first byte of a window that sends it to DISCARDING is no lead byte (R161). -/
def isDiscardByte (b : Byte) : Bool :=
  decide (b ≠ leadLong) && decide (b ≠ leadShort)

/-- The bytes are those of a frame that R162 rejects. -/
def isBadFrame (frame : List Byte) : Bool :=
  decide (readFrame frame = .bad)

/-- A keyed PIN is a four-digit number (R1, R88). -/
def pinKeyable (p : Presentation) : Bool :=
  match p.pin with
  | none => true
  | some v => decide (v.toNat ≤ Config.pinMax)

/-- An answer's presentation, if there is one, carries a PIN that can be keyed. -/
def answerKeyable (a : StationAnswer) : Bool :=
  match a.presentation with
  | none => true
  | some p => pinKeyable p

/-- The checks of the commands whose operands can be ill-formed. -/
def Instr.wellFormed : Instr → Bool
  | .windowDiscard b => isDiscardByte b
  | .badFrame f => isBadFrame f
  | .goodAnswer _ a => answerKeyable a
  | .powerOn _ | .resetInput | .imageLoad | .supplyLow | .supplyRestart | .keyValidated _ | .uptimeSecond
  | .holdLimitReached _ | .minuteBoundary | .referenceEdge | .referenceGap | .provingPeriodEnd
  | .commitCompletion _ | .windowStart | .windowEnd | .readStatus | .takeChanges | .setAttention _ _ | .restart
  | .findPermit _ | .readPermit _ | .writePermit _ _ | .amendPermit _ _ | .retirePermit _ | .readRoster _
  | .readOccupant _ | .retireOccupant _ | .confirmVacant _ | .grantEntry _ _ | .releaseExit _ | .readDoor _
  | .setDoorMode _ _ | .resetDoor _ | .clearCounts _ | .readZone _ | .isolateZone _ | .restoreZone _ | .resetZone _
  | .readAlarm _ | .acknowledgeAlarm _ | .clearAlarm _ | .clearLostCount | .readClock | .setClock _ _
  | .readWindow _ | .writeWindow _ _ | .readStation _ | .readSetting _ | .writeSetting _ _ | .commitSettings
  | .poll _ | .missedAnswer _ _ | .presentationDecided _ | .pairWindowEnd _ | .travelLimit _ | .lapse _
  | .heldOpenLimit _ | .reboltDelayEnd _ | .countdownEnd _ | .pulseEnd _ | .confirmEnd _ | .watchDeadline _
  | .loneWorkerRepeat _ | .answerSent | .supplyBelowRetention => true

end Sys2Proof
end

