-- ==== Sys2Proof/Tests/Slice0.lean ====
section
/-! SUPPORT. The model's own tests: an ill-formed command for each check of WellFormed, small steps of the commands, and
for every statement states and operands that meet its hypotheses. -/

namespace Sys2Proof.Tests

open Sys2Proof.Machine

set_option Elab.async false

/-! ### States to start from -/

/-- The state after one command. -/
def after (c : Instr) (s : State) : State :=
  match exec c s with
  | .next t => t
  | .fault _ | .refused _ => s

/-- The answer to a request. -/
def answerTo (c : Instr) (s : State) : Option Answer := (after c s).framer.answer

/-- A door SECURED, closed and thrown. -/
def shutDoor : Door :=
  { Door.atPowerOn with state := .secured, contact := some .closed, bolt := some .thrown }

/-- A change set without marks. -/
def unmarked : ChangeSet :=
  ⟨Table.replicate 16 false, Table.replicate 24 false, Table.replicate 32 false, Table.replicate 64 false,
    Table.replicate 64 false, Table.replicate 512 false, false, false⟩

/-- The part in quiet service at 5 s: doors SECURED, stations PRESENT, no strongroom UNCERTAIN, nothing marked. -/
def calm : State :=
  { State.reset with
    doors := Table.replicate 32 shutDoor
    stations := Table.replicate 64 { Station.atPowerOn with presence := .present, inputs := some 2 }
    uncertain := Table.replicate 16 false
    changes := unmarked
    uptimeMs := 5000 }

/-- The same, taking a request, with the engineer key on or off. -/
def asking (key : Bool := false) : State := { calm with framer := ⟨.receiving, none⟩, keyOn := key }

/-- The same in LOW. -/
def low (s : State) : State := { s with supply := .low s.lowPeriod }

/-- A STAFF permit for every strongroom at any hour. -/
def staff (c : Credential) (pin : Option Nat := none) : Permit :=
  ⟨c, 0, 0xFFFF, .staff, .anyHours, pin, .active, none, none, false, 0, none⟩

/-- A record of strongroom 0. -/
def person (p : PermitIx) (ph : Phase) : Occupant := ⟨0, p, ph, 1, false, none, none⟩

/-- A part with a door record changed. -/
def atDoor (d : DoorNo) (f : Door → Door) (s : State) : State := s.modDoor d f

/-- A part with one holder on the roster: permit 9, credential 77, slot 4, strongroom 0. -/
def withHolder (ph : Phase) (s : State) : State :=
  ((s.setPermit 9 (some { staff 77 with occupant := some 4 })).setOccupant 4 (some (person 9 ph))).setList 0 [4]

theorem asking_ready (b : Bool) : (asking b).Ready := ⟨rfl, rfl, rfl⟩

theorem calm_live : calm.Live := ⟨rfl, rfl, rfl⟩

theorem no_permit (p : PermitIx) : calm.permit p = none := by
  simp [calm, State.reset, State.powerOn, State.permit]

theorem no_occupant (o : Slot) : calm.occupant o = none := by
  simp [calm, State.reset, State.powerOn, State.occupant]

theorem no_alarm (i : AlarmSlot) : calm.alarm i = none := by
  simp [calm, State.reset, State.powerOn, State.alarm]

theorem no_pair (r : Room) : calm.pair r = none := by
  simp [calm, State.reset, State.powerOn, State.pair]

theorem permit_set (s : State) (p q : PermitIx) (x : Option Permit) :
    (s.setPermit p x).permit q = if p = q then x else s.permit q :=
  Table.get_set _ _ _ _

/-! ### WellFormed: an ill-formed command for each check -/

theorem test_lead_byte_not_discarded : Instr.wellFormed (.windowDiscard leadLong) = false := by decide

theorem test_good_frame_not_bad : Instr.wellFormed (.badFrame (shortFrame 0x01 0)) = false := by decide +kernel

theorem test_pin_of_five_digits :
    Instr.wellFormed (.goodAnswer 0 ⟨2, some ⟨.entry, 7, some 10000, false⟩⟩) = false := by decide

theorem test_well_formed : Instr.wellFormed (.windowDiscard 0) = true ∧ Instr.wellFormed (.badFrame [leadShort, 0x01, 0, 0]) = true
    ∧ Instr.wellFormed (.goodAnswer 0 ⟨2, some ⟨.entry, 7, some 9999, false⟩⟩) = true := by decide +kernel

/-! ### Indices at the ends of their ranges -/

/-- For every kind of record the last index is in range and the next is not. -/
theorem test_index_boundaries : (∃ x : Fin 16, (15 : BitVec 16).toNat = x.val) ∧ 16 ≤ (16 : BitVec 16).toNat
    ∧ (∃ x : Fin 24, (23 : BitVec 16).toNat = x.val) ∧ 24 ≤ (24 : BitVec 16).toNat
    ∧ (∃ x : Fin 32, (31 : BitVec 16).toNat = x.val) ∧ 32 ≤ (32 : BitVec 16).toNat
    ∧ (∃ x : Fin 64, (63 : BitVec 16).toNat = x.val) ∧ 64 ≤ (64 : BitVec 16).toNat
    ∧ (∃ x : Fin 512, (511 : BitVec 16).toNat = x.val) ∧ 512 ≤ (512 : BitVec 16).toNat :=
  ⟨⟨15, rfl⟩, by decide, ⟨23, rfl⟩, by decide, ⟨31, rfl⟩, by decide, ⟨63, rfl⟩, by decide, ⟨511, rfl⟩, by decide⟩

/-! ### Queue, frames, windows, host link -/

theorem test_step_takes_front : (∃ s : State, s.pending = .windowEnd :: []) ∧ calm.pending = [] :=
  ⟨⟨{ calm with pending := [.windowEnd] }, rfl⟩, rfl⟩

theorem test_idle_cases : (calm.running = true ∧ calm.uptimeMs % 1000 < 999 ∧ calm.uptimeMs / 1000 < 4294967295)
    ∧ ({ calm with power := .loading } : State).running = false
    ∧ ({ calm with uptimeMs := 999 } : State).uptimeMs % 1000 = 999
    ∧ 4294967295 ≤ ({ calm with uptimeMs := 4294967295000 } : State).uptimeMs / 1000 := by decide

theorem test_frame_round_trip : Instr.frame? (.readZone 3) = some [0xC3, 0x40, 0, 3, 0, 0xFA]
    ∧ readFrame [0xC3, 0x40, 0, 3, 0, 0xFA] = .request (.readZone 3)
    ∧ readFrame [0xC4, 0x40, 3, 0xF9] = .request (.readZone 3) := by decide +kernel

/-- A wrong check byte, an unlisted code, a count that differs, a count above 48, a short frame with a payload code. -/
theorem test_bad_frames : readFrame [0xC3, 0x40, 0, 3, 0, 0xFB] = .bad ∧ readFrame (shortFrame 0x05 0) = .bad
    ∧ readFrame (longFrame 0x40 3 [1]) = .bad ∧ readFrame [0xC3, 0x40, 0, 3, 49] = .bad
    ∧ readFrame (shortFrame 0x33 0) = .bad ∧ ([1] : List Byte).length = (1 : Byte).toNat
    ∧ answerTo (.badFrame (shortFrame 0x05 0)) (asking) = some ⟨.badFrame, []⟩ := by decide +kernel

theorem test_window_steps : calm.framer.step = .idle ∧ (after .windowStart calm).framer.step = .receiving
    ∧ (after .windowStart { calm with power := .loading }).framer.step = .discarding
    ∧ (after (.windowDiscard 0) (after .windowStart calm)).framer.step = .discarding
    ∧ (after .answerSent (after .readStatus asking)).framer.step = .done
    ∧ (after .windowEnd (after .readStatus asking)).framer.step = .idle := by decide +kernel

theorem test_read_status : answerTo .readStatus { asking true with supplyRestarted := true }
      = some ⟨.ok, [0x61, 0, 0, 0, 0, 0, 1, 3, 0, 0]⟩
    ∧ (after .readStatus { asking true with supplyRestarted := true }).changes.status = true
    ∧ (after .readStatus asking).changes.status = false := by decide +kernel

/-- STATION 39 is sent as 80h, 27h (11), and stands before CLOCK. -/
theorem test_take_order : (unmarked.put true (.station 39)).members.head? = some (.station 39)
    ∧ num2 (Identity.station 39).code = [0x80, 0x27] ∧ (Identity.station 39).code < Identity.clock.code := by
  decide +kernel

theorem test_set_attention : (1 : Byte) &&& 3 ≠ 0 ∧ (0x80 : Byte) &&& 1 = 0
    ∧ answerTo (.setAttention 1 3) asking = some ⟨.badValue, []⟩
    ∧ answerTo (.setAttention 0x80 1) asking = some ⟨.ok, [0x82]⟩ := by decide +kernel

theorem test_restart : (after .restart { asking with attentionMask := 0 }).attentionMask = 3
    ∧ (after .restart { asking with attentionMask := 0 }).lines.attn = true
    ∧ (after .restart asking).changes.permits.get 511 = true := by decide +kernel

theorem test_lines : calm.running = true ∧ calm.inLow = false ∧ calm.lines = ⟨false, false, false⟩
    ∧ ({ calm with overflow := true } : State).lines.guard = true := by decide +kernel

/-- The outputs: a door RELEASED under a grant (03h, chapter 11's example), one held open in alarm, a fail-release station
lost, an exit driven in FAULT, a zone with its sounder and beacon, the muster indicator and its field, an unused address. -/
theorem test_outputs : (calm.entry 0).role = .door 0
    ∧ (atDoor 0 (fun x => { x with state := .released, grant := some ⟨.entry, [], none⟩ }) calm).stationOutput 0 = 3
    ∧ ((atDoor 0 (fun x => { x with state := .opened }) calm).setAlarm 0
        (some ⟨⟨.doorHeld, some 0, some 0, none, none⟩, none, false, some true, 1, 0⟩)).stationOutput 0 = 0b1101
    ∧ boltDrive { shutDoor with state := .fault .stationLost } { calm.doorSettings 0 with failMode := .failRelease }
      = .withdraw
    ∧ boltDrive { shutDoor with state := .fault .boltJam, grant := some ⟨.exit, [], none⟩ } (calm.doorSettings 0) = .withdraw
    ∧ (calm.setZone 0 { calm.zone 0 with state := .releasing, mainFire := true }).zoneOutput 0 = 0b01110
    ∧ (calm.setZone 0 { calm.zone 0 with state := .discharged }).zoneOutput 0 = 0b00111
    ∧ calm.musterIndicator = .green ∧ (calm.setZone 5 { calm.zone 5 with state := .held }).musterIndicator = .amber
    ∧ calm.stationOutput (address 3 0) = 0 := by decide +kernel

/-! ### Permits -/

theorem test_find_permit : (asking.setPermit 511 (some (staff 77))).Ready
    ∧ (∀ q y, (asking.setPermit 511 (some (staff 77))).permit q = some y → y.credential = 77 → q = 511)
    ∧ answerTo (.findPermit 77) (asking.setPermit 511 (some (staff 77))) = some ⟨.ok, [1, 0xFF, 0, 0]⟩
    ∧ answerTo (.findPermit 0) asking = some ⟨.badValue, []⟩ ∧ answerTo (.findPermit 5) asking = some ⟨.notFound, []⟩ := by
  refine ⟨⟨rfl, rfl, rfl⟩, ?_, by decide +kernel⟩
  intro q y h _
  rw [permit_set, show asking.permit q = none from no_permit q] at h
  split at h
  · next e => exact e.symm
  · cases h

theorem test_read_permit : answerTo (.readPermit 9) (withHolder .inside asking)
      = some ⟨.ok, [0, 0, 77, 0, 0, 0xFF, 0xFF, 0, 1, 0, 0, 0, 0, 0, 0, 0, 0, 0, 4]⟩
    ∧ answerTo (.readPermit 8) (withHolder .inside asking) = some ⟨.notFound, []⟩
    ∧ answerTo (.readPermit 512) asking = some ⟨.badValue, []⟩ := by decide +kernel

/-- The payload of a WRITE PERMIT with a pin. -/
def fields : PermitFields := ⟨78, 1, 1, 2, 1, 1, 1, 9999, 0, 0⟩

theorem fields_writable : fields.Writable := by
  constructor <;> decide

theorem test_write_permit_boundaries : ¬ ({ fields with pin := 10000 } : PermitFields).Writable
    ∧ ¬ ({ fields with cls := 3 } : PermitFields).Writable ∧ ¬ ({ fields with state := 2 } : PermitFields).Writable := by
  refine ⟨fun h => ?_, fun h => ?_, fun h => ?_⟩
  · exact absurd (h.pin (by decide)) (by decide)
  · exact absurd h.cls (by decide)
  · exact absurd h.state (by decide)

theorem test_write_permit : (∀ x, asking.permit 511 = some x → x.occupant = none)
    ∧ (∀ q x, q ≠ 511 → asking.permit q = some x → x.credential ≠ fields.credential)
    ∧ (∀ o x, asking.occupant o = some x → x.permit ≠ 511)
    ∧ (after (.writePermit 511 fields) asking).permit 511
      = some ⟨78, 1, 1, .visitor, .anyHours, some 9999, .suspended, none, none, false, 0, none⟩
    ∧ (after (.writePermit 511 fields) asking).changes.permits.get 511 = true := by
  refine ⟨fun x h => ?_, fun q x _ h => ?_, fun o x h => ?_, by decide +kernel⟩
  · rw [show asking.permit 511 = none from no_permit _] at h; cases h
  · rw [show asking.permit q = none from no_permit _] at h; cases h
  · rw [show asking.occupant o = none from no_occupant _] at h; cases h

theorem test_write_permit_refused : answerTo (.writePermit 9 fields) (withHolder .inside asking) = some ⟨.refused, [1]⟩
    ∧ answerTo (.writePermit 8 { fields with credential := 77 }) (withHolder .inside asking) = some ⟨.refused, [2]⟩
    ∧ ((withHolder .inside asking).permit 9).map Permit.occupant = some (some 4)
    ∧ (withHolder .inside asking).permit 8 = none := by decide +kernel

/-- The same permit written again is marked, though no field changes. -/
theorem test_write_permit_again : let s := { after (.writePermit 511 fields) asking with
      framer := ⟨.receiving, none⟩, changes := unmarked }
    s.Ready ∧ (after (.writePermit 511 fields) s).permits = s.permits
      ∧ (after (.writePermit 511 fields) s).changes.has (.permit 511) = true :=
  ⟨⟨by decide +kernel, rfl, by decide +kernel⟩, by decide +kernel, by decide +kernel⟩

/-- An AMEND PERMIT that sets AFTER_HOURS, replaces the pin and clears the uses. -/
def amend : AmendFields := ⟨2, 1, 0, 1, 1, 0, 0, 0, 2, 9999⟩

theorem amend_consistent : amend.Consistent (staff 77) := by
  constructor <;> decide

theorem test_amend_permit : ¬ ({ amend with pin := 10000 } : AmendFields).Consistent (staff 77)
    ∧ answerTo (.amendPermit 511 amend) asking = some ⟨.notFound, []⟩
    ∧ (after (.amendPermit 511 amend) (asking.setPermit 511 (some { staff 77 with state := .suspended, pinFailures := 3 }))).permit
      511 = some { staff 77 (some 9999) with rooms := 0xFFFE } := by
  refine ⟨fun h => absurd h.pin (by decide), by decide +kernel⟩

/-- A RETIRING permit may not be suspended, nor reactivated. -/
theorem test_amend_retiring : (amend.flagSet.getLsbD 0 || amend.flagClear.getLsbD 0) = true
    ∧ amend.Consistent { staff 77 with state := .retiring } ∧ answerTo (.amendPermit 511 amend)
      (asking.setPermit 511 (some { staff 77 with state := .retiring })) = some ⟨.refused, [3]⟩ := by
  refine ⟨by decide, ?_, by decide +kernel⟩
  constructor <;> decide

theorem test_retire_permit : (after (.retirePermit 511) (asking.setPermit 511 (some (staff 77)))).permit 511 = none
    ∧ ((after (.retirePermit 9) (withHolder .inside asking)).permit 9).map Permit.state = some .retiring
    ∧ answerTo (.retirePermit 511) (asking.setPermit 511 (some { staff 77 with state := .retiring })) = some ⟨.ok, []⟩ := by
  decide +kernel

/-- The duress PINs of R14. -/
theorem test_pins : duressPin 4719 = 4710 ∧ duressPin 0 = 1 ∧ duressPin 5558 = 5559
    ∧ comparePin 4719 (some 4719) = .pass ∧ comparePin 4719 (some 4710) = .duress ∧ comparePin 4719 (some 4711) = .wrong
    ∧ (staff 7).pinFailures ≤ 1 ∧ ({ staff 7 with pinFailures := 2 } : Permit).afterPin .wrong
      = { staff 7 with pinFailures := 3, state := .suspended } := by decide

/-! ### Roster -/

theorem test_read_roster : answerTo (.readRoster 0) (withHolder .inside asking) = some ⟨.ok, [0, 4, 1, 4, 2]⟩
    ∧ answerTo (.readOccupant 4) (withHolder .inside asking) = some ⟨.ok, [0, 0, 9, 2, 0, 0, 0, 1, 0, 0xFF, 0xFF, 0, 0, 0, 0]⟩
    ∧ answerTo (.readOccupant 63) asking = some ⟨.notFound, []⟩ := by decide +kernel

theorem test_retire_occupant : (withHolder .inside asking).Ready
    ∧ (withHolder .inside asking).occupant 4 = some (person 9 .inside)
    ∧ (after (.retireOccupant 4) (withHolder .inside asking)).occupant 4 = none
    ∧ (after (.retireOccupant 4) (withHolder .inside asking)).list 0 = []
    ∧ ((after (.retireOccupant 4) (withHolder .inside asking)).permit 9).map Permit.occupant = some none := by
  refine ⟨⟨rfl, rfl, rfl⟩, by decide +kernel⟩

/-- A VISITOR in slot 5 with the STAFF escort in slot 4, in strongroom 0. -/
def escortedVisitor (s : State) : State :=
  (((withHolder .inside s).setPermit 10 (some { staff 78 with cls := .visitor, occupant := some 5 })).setOccupant 5
    (some (person 10 .inside))).setList 0 [4, 5]

theorem escorted_permit (p : PermitIx) (m : Permit) : (escortedVisitor asking).permit p = some m ↔
    (p = 10 ∧ m = { staff 78 with cls := .visitor, occupant := some 5 })
      ∨ (p = 9 ∧ m = { staff 77 with occupant := some 4 }) := by
  rw [show (escortedVisitor asking).permit p = if 10 = p then some { staff 78 with cls := .visitor, occupant := some 5 }
      else if 9 = p then some { staff 77 with occupant := some 4 } else none by
    simp [escortedVisitor, withHolder, asking, calm, State.reset, State.powerOn, State.permit, State.setPermit,
      State.setOccupant, State.setList, Table.get_set]]
  grind

theorem escorted_occupant (o : Slot) (x : Occupant) : (escortedVisitor asking).occupant o = some x ↔
    (o = 5 ∧ x = person 10 .inside) ∨ (o = 4 ∧ x = person 9 .inside) := by
  rw [show (escortedVisitor asking).occupant o = if 5 = o then some (person 10 .inside)
      else if 4 = o then some (person 9 .inside) else none by
    simp [escortedVisitor, withHolder, asking, calm, State.reset, State.powerOn, State.occupant, State.setPermit,
      State.setOccupant, State.setList, Table.get_set]]
  grind

theorem escorted_list (r : Room) : (escortedVisitor asking).list r = if 0 = r then [4, 5] else [] := by
  simp only [escortedVisitor, withHolder, asking, calm, State.reset, State.powerOn, State.list, State.setPermit,
    State.setOccupant, State.setList, Table.get_set, Table.get_replicate]
  split <;> rfl

theorem escorted_pair (r : Room) : (escortedVisitor asking).pair r = none := by
  simp [escortedVisitor, withHolder, asking, calm, State.reset, State.powerOn, State.pair]

/-- Permits, records and lists of the visitor and the escort name each other: O16's premise is met. -/
theorem test_escorted_sound : RosterSound (escortedVisitor asking) where
  unique p q m n hp hq e := by
    rcases (escorted_permit p m).mp hp with ⟨rfl, rfl⟩ | ⟨rfl, rfl⟩ <;>
      rcases (escorted_permit q n).mp hq with ⟨rfl, rfl⟩ | ⟨rfl, rfl⟩ <;> first | rfl | exact absurd e (by decide)
  numbered p m hp := by
    rcases (escorted_permit p m).mp hp with ⟨rfl, rfl⟩ | ⟨rfl, rfl⟩ <;> decide
  linked o x ho := by
    rcases (escorted_occupant o x).mp ho with ⟨rfl, rfl⟩ | ⟨rfl, rfl⟩
    · exact ⟨_, (escorted_permit 10 _).mpr (.inl ⟨rfl, rfl⟩), rfl⟩
    · exact ⟨_, (escorted_permit 9 _).mpr (.inr ⟨rfl, rfl⟩), rfl⟩
  named p m o hp e := by
    rcases (escorted_permit p m).mp hp with ⟨rfl, rfl⟩ | ⟨rfl, rfl⟩ <;> cases e
    · exact ⟨_, (escorted_occupant 5 _).mpr (.inl ⟨rfl, rfl⟩), rfl⟩
    · exact ⟨_, (escorted_occupant 4 _).mpr (.inr ⟨rfl, rfl⟩), rfl⟩
  retiring p m hp e := by
    rcases (escorted_permit p m).mp hp with ⟨rfl, rfl⟩ | ⟨rfl, rfl⟩ <;> rfl
  held r h e := by
    rw [escorted_pair] at e
    cases e
  apart r u h k e := by
    rw [escorted_pair] at e
    cases e
  listed r o := by
    simp only [escorted_list, escorted_occupant]
    constructor
    · intro h
      split at h
      · next e =>
        rcases List.mem_cons.mp h with rfl | h
        · exact ⟨_, .inr ⟨rfl, rfl⟩, e⟩
        · cases List.mem_singleton.mp h
          exact ⟨_, .inl ⟨rfl, rfl⟩, e⟩
      · cases h
    · rintro ⟨x, ⟨rfl, rfl⟩ | ⟨rfl, rfl⟩, e⟩ <;> (cases e; decide)
  once r := by
    rw [escorted_list]
    split <;> decide
  limit r := by
    rw [escorted_list]
    revert r
    decide +kernel

/-- The key and the cause of the alarm in slot 0. -/
def firstAlarm (s : State) : Option (AlarmKey × Option Bool) := (s.alarm 0).map fun a => (a.key, a.cause)

/-- UNESCORTED: raised when the escort leaves, ended when the visitor then leaves; neither when the visitor leaves first. In
LOW it waits for the supply restart, which raises it. -/
theorem test_unescorted : firstAlarm (after (.retireOccupant 4) (escortedVisitor asking)) = some (unescortedKey 0, some true)
    ∧ firstAlarm (after (.retireOccupant 5)
        { after (.retireOccupant 4) (escortedVisitor asking) with framer := ⟨.receiving, none⟩ })
      = some (unescortedKey 0, some false)
    ∧ firstAlarm (after (.retireOccupant 5) (escortedVisitor asking)) = none
    ∧ (after (.retireOccupant 4) (low (escortedVisitor asking))).list 0 = [5]
    ∧ firstAlarm (after (.retireOccupant 4) (low (escortedVisitor asking))) = none
    ∧ firstAlarm (after .supplyRestart (after (.retireOccupant 4) (low (escortedVisitor asking))))
      = some (unescortedKey 0, some true)
    ∧ firstAlarm (after .supplyRestart (low (escortedVisitor asking))) = none := by decide +kernel

/-- The condition as it is stated: a strongroom with its escort is not unescorted, and without it it is. -/
theorem test_unescorted_condition : ¬ (escortedVisitor calm).Unescorted 0
    ∧ (after (.retireOccupant 4) (escortedVisitor asking)).Unescorted 0 := by
  rw [← unescorted_iff, ← unescorted_iff]
  decide +kernel

theorem test_confirm_vacant : answerTo (.confirmVacant 15) asking = some ⟨.privilege, []⟩
    ∧ answerTo (.confirmVacant 0) (withHolder .inside (asking true)) = some ⟨.refused, [1]⟩
    ∧ answerTo (.confirmVacant 15) ((asking true).modDoor 31 fun x => { x with effMode := .holdOpen })
      = some ⟨.refused, [1]⟩
    ∧ (after (.confirmVacant 15) ((asking true).claimUncertain 15)).uncertain.get 15 = false
    ∧ (asking true).list 15 = [] ∧ ((asking true).door (outerDoor 15)).effMode ≠ .holdOpen
    ∧ ((asking true).door (innerDoor 15)).effMode ≠ .holdOpen := by decide +kernel

/-! ### Admission -/

/-- AFTER_HOURS is the decision at reset; in DAY no pair is needed. -/
def day (s : State) : State := { s with decision := .day }

theorem staff_entitled : (day calm).Entitled 0 (staff 77) :=
  ⟨rfl, .inl rfl, by simp [staff], by decide, .inl rfl⟩

theorem pinned_entitled : calm.Entitled 0 (staff 77 (some 4719)) :=
  ⟨rfl, .inl rfl, by simp [staff], by decide, .inr ⟨rfl, rfl⟩⟩

theorem calm_places : (calm.list 0).length = 0 ∧ (calm.zoneSettings 0).occupancyLimit = 4 := by decide +kernel

theorem calm_takes (n : Nat) (hn : n ≤ 4) : calm.TakesAtDoor 0 9 (staff 77) n where
  zone := .inl rfl
  mode := rfl
  noFault := fun c h => by
    rw [show (calm.door (outerDoor 0)).state = .secured from rfl] at h
    cases h
  unlinked := rfl
  notPending := fun u h hh => by
    rw [no_pair] at hh
    cases hh
  place := by
    rw [calm_places.1, calm_places.2]
    omega
  noGrant := rfl
  noExit := rfl
  inner := rfl

theorem test_admissible : (day calm).Admissible 0 9 (staff 77) where
  entitled := staff_entitled
  place := { calm_takes 1 (by decide) with }
  escort := .inl (by decide)
  alone := fun h => absurd h.2.1 (by decide)

/-- GRANT ENTRY of the lowest and the highest door that is an outer door. -/
theorem test_grant_entry : answerTo (.grantEntry 0 9) (day (asking.setPermit 9 (some (staff 77)))) = some ⟨.ok, [0]⟩
    ∧ (after (.grantEntry 0 9) (day (asking.setPermit 9 (some (staff 77))))).door 0
      = { shutDoor with state := .unbolting, grant := some ⟨.remoteEntry, [0], none⟩, stepDeadline := some 8000 }
    ∧ (after (.grantEntry 0 9) (day (asking.setPermit 9 (some (staff 77))))).list 0 = [0]
    ∧ answerTo (.grantEntry 1 9) (day (asking.setPermit 9 (some (staff 77)))) = some ⟨.badValue, []⟩
    ∧ answerTo (.grantEntry 30 9) (asking.setPermit 9 (some (staff 77 (some 1)))) = some ⟨.refused, [0x19]⟩ := by
  decide +kernel

/-- A permit that waits alone AFTER_HOURS passes every check but the last. -/
theorem test_last_check_fails : FirstFailing
    (calm.checksOfPermit 0 (staff 77 (some 4719)) ++ calm.checksAtDoor 0 9 (staff 77 (some 4719)) 1 False
      ++ [(¬ calm.NeedsPair 0, .pairNeeded)]) .pairNeeded := by
  have h := calm_takes 1 (by decide)
  exact .inr ⟨rfl, .inr ⟨.inl rfl, .inr ⟨fun e w he => (nomatch he), .inr ⟨by simp [staff], .inr ⟨by decide,
    .inr ⟨.inr ⟨rfl, rfl⟩, .inr ⟨h.zone, .inr ⟨⟨h.mode, h.noFault⟩, .inr ⟨⟨rfl, h.notPending⟩, .inr ⟨h.place,
    .inr ⟨by decide +kernel, .inr ⟨⟨rfl, rfl⟩, .inr ⟨rfl, .inr ⟨.inl (by decide), .inl ⟨fun n => n ⟨by decide, rfl,
    by decide +kernel⟩, rfl⟩⟩⟩⟩⟩⟩⟩⟩⟩⟩⟩⟩⟩⟩⟩

/-- A pending pair that no longer stands is dropped, whatever the request comes to. -/
theorem test_stale_pair : ∃ h, (day (asking.setPair 0 (some ⟨8, false, 9000⟩))).pair 0 = some h
    ∧ ¬ (day (asking.setPair 0 (some ⟨8, false, 9000⟩))).PairStands 0 h :=
  ⟨_, rfl, fun h => absurd h.1.2.1 (by decide)⟩

/-- Refusals: the permit index 512, a free position, SUSPENDED, TIME_UNSET, FULL and, with a pair dropped, USED_UP. -/
theorem test_grant_entry_refused : answerTo (.grantEntry 0 512) asking = some ⟨.badValue, []⟩
    ∧ answerTo (.grantEntry 32 9) asking = some ⟨.badValue, []⟩ ∧ answerTo (.grantEntry 0 511) asking = some ⟨.notFound, []⟩
    ∧ answerTo (.grantEntry 0 9) (asking.setPermit 9 (some { staff 77 with state := .suspended })) = some ⟨.refused, [0x0B]⟩
    ∧ answerTo (.grantEntry 0 9) (asking.setPermit 9 (some { staff 77 with expiry := some 7 })) = some ⟨.refused, [0x09]⟩
    ∧ answerTo (.grantEntry 0 9) (day { asking.setPermit 9 (some (staff 77)) with
        occupants := Table.replicate 64 (some ⟨9, 400, .inside, 1, false, none, none⟩) }) = some ⟨.full, []⟩
    ∧ answerTo (.grantEntry 0 9) (day ((asking.setPermit 9 (some { staff 77 with uses := some 0 })).setPair 0
        (some ⟨8, false, 9000⟩))) = some ⟨.refused, [0x0D]⟩
    ∧ (after (.grantEntry 0 9) (day ((asking.setPermit 9 (some { staff 77 with uses := some 0 })).setPair 0
        (some ⟨8, false, 9000⟩)))).pair 0 = none := by decide +kernel

/-- At an OPEN door the grant is attached; the last use makes the permit RETIRING. -/
theorem test_grant_entry_open : let s := day ((asking.setPermit 9 (some { staff 77 with uses := some 1 })).modDoor 0 fun x =>
      { x with state := .opened, contact := some .opened })
    s.Admissible 0 9 { staff 77 with uses := some 1 }
      ∧ ((after (.grantEntry 0 9) s).door 0).grant = some ⟨.remoteEntry, [0], none⟩
      ∧ ((after (.grantEntry 0 9) s).door 0).state = .opened
      ∧ ((after (.grantEntry 0 9) s).permit 9).map (fun m => (m.uses, m.state)) = some (some 0, .retiring) := by
  have h := calm_takes 1 (by decide)
  exact ⟨⟨⟨rfl, .inl rfl, by simp, by decide, .inl rfl⟩, ⟨h.zone, rfl, fun c e => (nomatch e), rfl, h.notPending, h.place, rfl, rfl,
    rfl⟩, .inl (by decide), fun n => absurd n.2.1 (by decide)⟩, by decide +kernel⟩

/-- A card is held, undecided, at a station. -/
def handed (t : StationId) (q : Presentation) (s : State) : State :=
  s.setStation t { s.station t with handshake := .handed q }

/-- An entry card of credential 77. -/
def card (pin : Option (BitVec 16) := none) (f : Face := .entry) : Presentation := ⟨f, 77, pin, true⟩

theorem test_entry_presentation : (handed 0 (card) (day (calm.setPermit 9 (some (staff 77))))).Holds 0 0 card
    ∧ (calm.entry 0).role = .door (outerDoor 0)
    ∧ (handed 0 card (day (calm.setPermit 9 (some (staff 77))))).lookup 77 = some 9
    ∧ ((after (.presentationDecided 0) (handed 0 card (day (calm.setPermit 9 (some (staff 77)))))).station 0).handshake
      = .answering .grant true
    ∧ (after (.presentationDecided 0) (handed 0 card (day (calm.setPermit 9 (some (staff 77)))))).occupant 0
      = some ⟨0, 9, .admitted, 5, false, none, none⟩ := by
  refine ⟨⟨rfl, rfl, by decide +kernel, by decide +kernel⟩, by decide +kernel⟩

/-- The duress PIN admits, sets the flag and raises DURESS; the PIN failures are 0 after it. -/
theorem test_duress_entry : let m : Permit := { staff 77 (some 4719) with pinFailures := 2 }
    let s := handed 0 (card (some 4710)) (day (calm.setPermit 9 (some m)))
    m.PinPasses (some 4719) false ∧ m.PinPasses (some 4710) true ∧ (staff 77).PinPasses none false
      ∧ s.Holds 0 0 (card (some 4710)) ∧ (day calm).Admissible 0 9 m
      ∧ (after (.presentationDecided 0) s).occupant 0 = some ⟨0, 9, .admitted, 5, true, none, none⟩
      ∧ (after (.presentationDecided 0) s).permit 9 = some { staff 77 (some 4719) with occupant := some 0 }
      ∧ (after (.presentationDecided 0) s).alarm 0
        = some ⟨⟨.duress, some 0, some 0, none, none⟩, some 9, false, none, 5, 0⟩ := by
  have h := calm_takes 1 (by decide)
  exact ⟨.inr ⟨4719, 4719, rfl, rfl, .inl ⟨by decide, rfl⟩⟩, .inr ⟨4719, 4710, rfl, rfl, .inr ⟨⟨by decide, by decide⟩, rfl⟩⟩,
    .inl ⟨rfl, rfl⟩, ⟨rfl, rfl, by decide +kernel, by decide +kernel⟩,
    ⟨⟨rfl, .inl rfl, by simp [staff], by decide, .inl rfl⟩, { h with unlinked := rfl, notPending := h.notPending }, .inl (by decide),
      fun n => absurd n.2.1 (by decide)⟩, by decide +kernel⟩

/-- The first of a pair waits; a second is admitted with the first, in the two lowest slots. -/
def firstOfPair : State := handed 0 (card (some 4719)) (calm.setPermit 9 (some (staff 77 (some 4719))))

def secondOfPair : State :=
  (firstOfPair.setPermit 8 (some (staff 76 (some 1)))).setPair 0 (some ⟨8, false, 9000⟩)

theorem test_pair : firstOfPair.NeedsPair 0 ∧ firstOfPair.Holds 0 0 (card (some 4719))
    ∧ (after (.presentationDecided 0) firstOfPair).pair 0 = some ⟨9, false, 35000⟩
    ∧ ((after (.presentationDecided 0) firstOfPair).station 0).handshake = .answering .wait true
    ∧ (∃ o, firstOfPair.occupant o = none) :=
  ⟨⟨by decide, rfl, by decide +kernel⟩, ⟨rfl, rfl, by decide +kernel, by decide +kernel⟩, by decide +kernel, by decide +kernel,
    ⟨0, rfl⟩⟩

theorem test_pair_completed : secondOfPair.NeedsPair 0 ∧ secondOfPair.Holds 0 0 (card (some 4719))
    ∧ secondOfPair.TakesAtDoor 0 9 (staff 77 (some 4719)) 2
    ∧ (after (.presentationDecided 0) secondOfPair).list 0 = [0, 1]
    ∧ (after (.presentationDecided 0) secondOfPair).occupant 0 = some ⟨0, 8, .admitted, 5, false, some 1, none⟩
    ∧ (after (.presentationDecided 0) secondOfPair).occupant 1 = some ⟨0, 9, .admitted, 5, false, some 0, none⟩
    ∧ (after (.presentationDecided 0) secondOfPair).pair 0 = none := by
  refine ⟨⟨by decide, rfl, by decide +kernel⟩, ⟨rfl, rfl, by decide +kernel, by decide +kernel⟩, ?_, by decide +kernel⟩
  refine { calm_takes 2 (by decide) with notPending := ?_, unlinked := rfl }
  intro u h hh
  have : secondOfPair.pair u = if (0 : Room) = u then some ⟨8, false, 9000⟩ else calm.pair u := Table.get_set _ _ _ _
  rw [this] at hh
  split at hh
  · cases hh; decide
  · rw [no_pair] at hh; cases hh

/-- The pair stands: its holder is entitled. The holder's own card again waits; a stale pair is replaced by the holder who
comes; a pair of two duress PINs is admitted with both flags. -/
theorem test_pair_stands : secondOfPair.PairStands 0 ⟨8, false, 9000⟩
    ∧ ((after (.presentationDecided 0) (handed 0 ⟨.entry, 76, none, true⟩ secondOfPair)).station 0).handshake
      = .answering .wait true
    ∧ (after (.presentationDecided 0) (handed 0 ⟨.entry, 76, none, true⟩ secondOfPair)).pair 0 = some ⟨8, false, 9000⟩
    ∧ (after (.presentationDecided 0) (secondOfPair.setPermit 8 (some { staff 76 with state := .suspended }))).pair 0
      = some ⟨9, false, 35000⟩
    ∧ ((after (.presentationDecided 0) (handed 0 (card (some 4710)) (secondOfPair.setPair 0 (some ⟨8, true, 9000⟩)))).occupant
        0).map Occupant.duress = some true
    ∧ ((after (.presentationDecided 0) (handed 0 (card (some 4710)) (secondOfPair.setPair 0 (some ⟨8, true, 9000⟩)))).occupant
        1).map Occupant.duress = some true :=
  ⟨⟨⟨by decide, rfl, by decide +kernel⟩, staff 76 (some 1), rfl, ⟨rfl, .inl rfl, by simp [staff], by decide, .inr ⟨rfl, rfl⟩⟩⟩,
    by decide +kernel, by decide +kernel, by decide +kernel, by decide +kernel, by decide +kernel⟩

theorem test_pair_window_end : secondOfPair.pair 0 = some ⟨8, false, 9000⟩
    ∧ (after (.pairWindowEnd 0) { secondOfPair with uptimeMs := 9000 }).pair 0 = none
    ∧ (after (.pairWindowEnd 0) secondOfPair).pair 0 = some ⟨8, false, 9000⟩ := by decide +kernel

/-- Inner entry from the vestibule; exit and check-in from inside; muster. -/
theorem test_roster_presentations :
    (handed 1 card (withHolder .vestibule calm)).Holds 0 1 card
    ∧ (handed 1 card (withHolder .vestibule calm)).slotIn 77 0 [.vestibule] = some 4
    ∧ (calm.entry 1).role = .door (innerDoor 0)
    ∧ ((after (.presentationDecided 0) (handed 1 card (withHolder .vestibule calm))).door 1).grant
      = some ⟨.innerEntry, [4], none⟩
    ∧ (handed 1 (card none .exit) (withHolder .inside calm)).CanBegin 1
    ∧ ¬ (handed 1 (card none .exit) (withHolder .inside calm)).HeldUnbolted 1
    ∧ ((after (.presentationDecided 0) (handed 1 (card none .exit) (withHolder .inside calm))).door 1).grant
      = some ⟨.exit, [4], none⟩
    ∧ ((after (.presentationDecided 0) (handed 1 (card none .exit) calm)).door 1).grant
      = some ⟨.anonymousExit, [], none⟩ := by
  refine ⟨⟨rfl, rfl, by decide +kernel, by decide +kernel⟩, by decide +kernel, by decide +kernel, by decide +kernel,
    ⟨rfl, by decide, .inl rfl⟩, fun h => absurd h.1 (by decide), by decide +kernel, by decide +kernel⟩

/-- Holder 8 in slot 5, the partner of slot 4. -/
def withPartner (ph : Phase) (s : State) : State :=
  (((withHolder .vestibule s).setPermit 8 (some { staff 76 with occupant := some 5 })).setOccupant 4
    (some { person 9 .vestibule with partner := some 5 })).setOccupant 5 (some { person 8 ph with partner := some 4 })

/-- The partner in VESTIBULE goes in too, one inside does not; an exit waits behind an OPEN partner door, joins the pending
exit there, and is merged in CLOSED_WAIT. -/
theorem test_roster_presentations_more :
    ((after (.presentationDecided 0) (handed 1 card (withPartner .vestibule calm))).door 1).grant
      = some ⟨.innerEntry, [4, 5], none⟩
    ∧ ((after (.presentationDecided 0) (handed 1 card (withPartner .inside calm))).door 1).grant
      = some ⟨.innerEntry, [4], none⟩
    ∧ ((after (.presentationDecided 0) (handed 1 (card none .exit) (withHolder .inside (atDoor 0 (fun x =>
        { x with state := .opened }) calm)))).door 1).pendingExit = some ⟨[4]⟩
    ∧ ((after (.presentationDecided 0) (handed 1 (card none .exit) (withHolder .inside (atDoor 0 (fun x =>
        { x with state := .opened }) (atDoor 1 (fun x => { x with pendingExit := some ⟨[7]⟩ }) calm))))).door 1).pendingExit
      = some ⟨[7, 4]⟩
    ∧ ((after (.presentationDecided 0) (handed 1 (card none .exit) (withHolder .inside (atDoor 1 (fun x =>
        { x with state := .closedWait, effMode := .egress, grant := some ⟨.anonymousExit, [], none⟩ }) calm)))).door 1).grant
      = some ⟨.exit, [4], some 13000⟩ := by decide +kernel

/-- A holder inside with a watch at stage 1 and a pin checks in. -/
def watched : State :=
  ((withHolder .inside calm).setPermit 9 (some { staff 77 (some 4719) with occupant := some 4 })).setWatch 4
    (some ⟨.one, some 9000, 100⟩)

theorem test_check_in : (handed 1 (card none .checkIn) watched).Holds 0 1 (card none .checkIn)
    ∧ (handed 1 (card none .checkIn) watched).slotIn 77 0 [.inside] = some 4
    ∧ (after (.presentationDecided 0) (handed 1 (card none .checkIn) watched)).watch 4
      = some ⟨.zero, some 1205000, 5000⟩
    ∧ ((after (.presentationDecided 0) (handed 1 (card (some 4710) .checkIn) watched)).occupant 4).map Occupant.duress
      = some true
    ∧ ((after (.presentationDecided 0) (handed 1 (card (some 4710) .checkIn) watched)).alarm 0).map Alarm.key
      = some ⟨.duress, some 0, some 1, some 4, none⟩ := by
  refine ⟨⟨rfl, rfl, by decide +kernel, by decide +kernel⟩, by decide +kernel⟩

/-- A check-in at stage 3: a record that names the slot has its cause ended; with none the watch starts again. -/
theorem test_check_in_stage_three : let s := handed 1 (card none .checkIn) (watched.setWatch 4 (some ⟨.three, none, 100⟩))
    let n := s.setAlarm 2 (some ⟨⟨.loneWorker, some 0, none, some 4, none⟩, some 9, false, some true, 2, 0⟩)
    n.Holds 0 1 (card none .checkIn) ∧ (after (.presentationDecided 0) s).watch 4 = some ⟨.zero, some 1205000, 5000⟩
      ∧ (after (.presentationDecided 0) n).watch 4 = some ⟨.three, none, 100⟩
      ∧ ((after (.presentationDecided 0) n).alarm 2).map Alarm.cause = some (some false)
      ∧ (∃ pin v, (staff 77 (some 4719)).pin = some pin ∧ (card (some 4710) .checkIn).pin = some v ∧ IsDuressPin pin v)
      ∧ ¬ IsDuressPin 4719 4719 :=
  ⟨⟨rfl, rfl, by decide +kernel, by decide +kernel⟩, by decide +kernel, by decide +kernel, by decide +kernel,
    ⟨4719, 4710, rfl, rfl, ⟨by decide, by decide⟩⟩, fun h => absurd h.2 (by decide)⟩

theorem test_presentations_without_door :
    (handed 0 card calm).Holds 0 0 card ∧ (handed 0 card calm).lookup 77 = none
    ∧ ((after (.presentationDecided 0) (handed 0 card calm)).door 0).lastDenial = some ⟨.unknown, 77⟩
    ∧ (handed 3 card calm).Holds 0 3 card ∧ (calm.entry 3).role = .muster
    ∧ (handed 3 card calm).slotOfCredential 77 = none
    ∧ ((after (.presentationDecided 0) (handed 3 card calm)).station 3).handshake = .answering (.deny .notOnRoster) true
    ∧ (handed 3 card (withHolder .inside calm)).slotOfCredential 77 = some 4
    ∧ (after (.presentationDecided 0) (handed 3 card (withHolder .inside calm))).occupant 4 = none := by
  refine ⟨⟨rfl, rfl, by decide +kernel, by decide +kernel⟩, by decide +kernel, by decide +kernel,
    ⟨rfl, rfl, by decide +kernel, by decide +kernel⟩, by decide +kernel⟩

/-- The decision and the last denial of door 0 on a card, with a permit of its number. -/
def deniedAt0 (m : Permit) (q : Presentation) (s : State) : Handshake × Option Denial :=
  let t := after (.presentationDecided 0) (handed 0 q (s.setPermit 9 (some m)))
  ((t.station 0).handshake, (t.door 0).lastDenial)

/-- Denials: SUSPENDED before the PIN; PIN_WRONG for none and for a wrong one; PIN_LOCKED at the third; ROOM_FULL, for two,
and ESCORT_NEEDED after the PIN, which counts. -/
theorem test_denials : deniedAt0 { staff 77 (some 4719) with state := .suspended } card calm
      = (.answering (.deny .suspended) true, some ⟨.suspended, 77⟩)
    ∧ deniedAt0 (staff 77 (some 4719)) card calm = (.answering (.deny .pinWrong) true, some ⟨.pinWrong, 77⟩)
    ∧ deniedAt0 (staff 77 (some 4719)) (card (some 4711)) calm = (.answering (.deny .pinWrong) true, some ⟨.pinWrong, 77⟩)
    ∧ deniedAt0 { staff 77 (some 4719) with pinFailures := 2 } (card (some 4711)) calm
      = (.answering (.deny .pinLocked) true, some ⟨.pinLocked, 77⟩)
    ∧ deniedAt0 (staff 77 (some 4719)) (card (some 4719)) ((calm.setPair 0 (some ⟨8, false, 9000⟩)).setPermit 8
        (some (staff 76 (some 1))) |>.setList 0 [4, 5, 6]) = (.answering (.deny .roomFull) true, some ⟨.roomFull, 77⟩)
    ∧ deniedAt0 { staff 77 with cls := .visitor } card (day calm)
      = (.answering (.deny .escortNeeded) true, some ⟨.escortNeeded, 77⟩)
    ∧ deniedAt0 { staff 77 with expiry := some 8 } card { calm with wall := some ⟨7, 60⟩, uptimeMs := 6001 }
      = (.answering (.deny .expired) true, some ⟨.expired, 77⟩) := by decide +kernel

/-- The PINs at which PIN_WRONG and the duress PIN meet, and the lists of checks at their ends. -/
theorem test_first_failing : (4711 : BitVec 16).toNat ≠ 4719 ∧ ¬ IsDuressPin 4719 4711 ∧ IsDuressPin 4719 4710
    ∧ FirstFailing (calm.checksOfPermit 0 { staff 77 with state := .suspended }) .suspended
    ∧ FirstFailing (calm.checksOfPermit 0 (staff 77)) .hours
    ∧ FirstFailing ((day calm).checksAtDoor 0 9 { staff 77 with cls := .visitor } 1 False) .escortNeeded
    ∧ FirstFailing (calm.checksInside 0 77) .unknown
    ∧ FirstFailing ((atDoor 0 (fun x => { x with state := .bolting }) (withHolder .vestibule calm)).checksInside 0 77)
      .interlock := by
  have h := calm_takes 1 (by decide)
  refine ⟨by decide, fun e => absurd e.2 (by decide), ⟨by decide, by decide⟩, .inl ⟨by decide, rfl⟩, ?_, ?_,
    .inl ⟨by decide +kernel, rfl⟩, ?_⟩
  · exact .inr ⟨rfl, .inr ⟨.inl rfl, .inr ⟨fun e w he => (nomatch he), .inr ⟨by simp [staff], .inr ⟨by decide, .inl ⟨by decide, rfl⟩⟩⟩⟩⟩⟩
  · exact .inr ⟨h.zone, .inr ⟨⟨h.mode, h.noFault⟩, .inr ⟨⟨rfl, h.notPending⟩, .inr ⟨h.place, .inr ⟨by decide +kernel,
      .inr ⟨⟨rfl, rfl⟩, .inr ⟨rfl, .inl ⟨by decide +kernel, rfl⟩⟩⟩⟩⟩⟩⟩⟩
  · exact .inr ⟨by decide +kernel, .inr ⟨by decide +kernel, .inr ⟨.inl rfl, .inr ⟨⟨rfl, fun f e => (nomatch e)⟩, .inr ⟨⟨rfl, rfl⟩,
      .inl ⟨by decide, rfl⟩⟩⟩⟩⟩⟩

/-! ### Doors -/

theorem test_read_records : (answerTo (.readDoor 31) asking).map (fun a => (a.result, a.payload.length)) = some (.ok, 43)
    ∧ (answerTo (.readZone 15) asking).map (fun a => (a.result, a.payload.length)) = some (.ok, 28)
    ∧ (answerTo (.readStation 63) asking).map (fun a => a.payload) = some [3, 0xFF, 0, 1, 1, 0, 2, 0xFF, 0, 2] := by
  decide +kernel

theorem test_release_exit : (asking).CanBegin 31 ∧ ¬ (asking).HeldUnbolted 31
    ∧ answerTo (.releaseExit 31) asking = some ⟨.ok, [0]⟩
    ∧ answerTo (.releaseExit 31) (atDoor 30 (fun x => { x with state := .opened }) asking) = some ⟨.ok, [2]⟩
    ∧ answerTo (.releaseExit 31) (atDoor 31 (fun x => { x with state := .released, effMode := .holdOpen }) asking)
      = some ⟨.ok, [3]⟩
    ∧ answerTo (.releaseExit 31) (atDoor 31 (fun x =>
      { x with state := .released, effMode := .egress, grant := some ⟨.exit, [], some 6000⟩ }) asking) = some ⟨.ok, [1]⟩ := by
  refine ⟨⟨rfl, by decide, .inl rfl⟩, fun h => absurd h.1 (by decide), by decide +kernel⟩

theorem test_held_unbolted :
    (atDoor 31 (fun x => { x with state := .released, effMode := .holdOpen }) asking).HeldUnbolted 31 :=
  ⟨rfl, rfl, .inr (.inl rfl)⟩

theorem test_not_begin : ¬ (atDoor 30 (fun x => { x with state := .opened }) asking).CanBegin 31 := by
  rintro ⟨_, _, h | h | h⟩ <;> revert h <;> decide

theorem calm_modes : ModesComputed calm := by
  show ∀ d : DoorNo, (calm.door d).effMode = effectiveMode (calm.zone (roomOf d)).state (calm.door d).baseMode
  decide +kernel

/-- The mode codes 0 to 3 can be set, 4 cannot. -/
theorem test_set_door_mode : ModesComputed (asking true) ∧ (asking true).MayChangeMode 31 .holdOpen
    ∧ (asking true).MayHoldOpen 31 ∧ byte BaseMode.holdOpen.code = 2
    ∧ ((after (.setDoorMode 31 2) (asking true)).door 31).state = .unbolting
    ∧ (after (.setDoorMode 31 2) (asking true)).uncertain.get 15 = true
    ∧ answerTo (.setDoorMode 31 4) (asking true) = some ⟨.badValue, []⟩
    ∧ answerTo (.setDoorMode 31 3) asking = some ⟨.privilege, []⟩
    ∧ answerTo (.setDoorMode 31 0) asking = some ⟨.ok, []⟩ :=
  ⟨calm_modes, .inl rfl, ⟨.inl rfl, rfl, rfl, rfl, by decide⟩, rfl, by decide +kernel, by decide +kernel, by decide +kernel,
    by decide +kernel, by decide +kernel⟩

theorem test_set_door_mode_refused :
    answerTo (.setDoorMode 31 2) ((asking true).setZone 15 { Zone.atPowerOn with state := .firstAlarm })
      = some ⟨.refused, [8]⟩
    ∧ answerTo (.setDoorMode 31 2) (atDoor 31 (fun x => { x with state := .opened }) (asking true)) = some ⟨.refused, [3]⟩
    ∧ answerTo (.setDoorMode 31 2) (atDoor 30 (fun x => { x with state := .opened }) (asking true))
      = some ⟨.refused, [7]⟩ := by decide +kernel

/-- A door that stands in HOLD_OPEN, its bolt withdrawn. -/
def heldOpenAt (f : Door → Door) : State :=
  atDoor 31 (fun x => f { x with baseMode := .holdOpen, effMode := .holdOpen, bolt := some .withdrawn }) (asking true)

/-- The record of the door after SET DOOR MODE. -/
def modeSet (mode : Byte) (s : State) : Door := (after (.setDoorMode 31 mode) s).door 31

/-- Leaving HOLD_OPEN: OPEN starts its held-open timer, RELEASED and UNBOLTING without a grant re-bolt, and a bolt that reads
THROWN makes the door SECURED. -/
theorem test_leave_hold_open : ModesComputed (heldOpenAt id)
    ∧ ¬ ((heldOpenAt fun x => { x with state := .opened }).door 31).ReboltsOn .normal
    ∧ ((heldOpenAt fun x => { x with state := .released }).door 31).ReboltsOn .normal
    ∧ (modeSet 0 (heldOpenAt fun x => { x with state := .opened })).stepDeadline = some 65000
    ∧ (modeSet 1 (heldOpenAt fun x => { x with state := .released })).state = .bolting
    ∧ (modeSet 0 (heldOpenAt fun x => { x with state := .unbolting })).stepDeadline = some 8000
    ∧ (modeSet 0 (heldOpenAt fun x => { x with state := .unbolting, bolt := some .thrown })).state = .secured
    ∧ (modeSet 0 (heldOpenAt fun x => { x with state := .released, pendingExit := some ⟨[]⟩ })).grant
      = some ⟨.anonymousExit, [], some 13000⟩ := by
  refine ⟨?_, ?_, ⟨rfl, .inl ⟨rfl, .inl rfl⟩⟩, by decide +kernel⟩
  · show ∀ d : DoorNo, ((heldOpenAt id).door d).effMode
      = effectiveMode ((heldOpenAt id).zone (roomOf d)).state ((heldOpenAt id).door d).baseMode
    decide +kernel
  · rintro ⟨_, ⟨h, _⟩ | ⟨h, _⟩⟩ <;> revert h <;> decide

/-- OPEN into OUT_OF_SERVICE loses its timer; RELEASED without a grant re-bolts in LOCKDOWN and OUT_OF_SERVICE; a bolt already
WITHDRAWN is taken as HOLD_OPEN begins; where the zone forces the mode, the base mode alone changes. -/
theorem test_mode_changes :
    (modeSet 3 (atDoor 31 (fun x => { x with state := .opened, stepDeadline := some 9000 }) (asking true))).stepDeadline = none
    ∧ (modeSet 1 (atDoor 31 (fun x => { x with state := .opened, stepDeadline := some 9000 }) (asking true))).stepDeadline
      = some 9000
    ∧ (modeSet 3 (atDoor 31 (fun x => { x with state := .released, bolt := some .withdrawn }) (asking true))).state = .bolting
    ∧ (modeSet 2 (atDoor 31 (fun x => { x with bolt := some .withdrawn }) (asking true))).state = .released
    ∧ modeSet 1 (atDoor 31 (fun x => { x with effMode := .egress })
        ((asking true).setZone 15 { Zone.atPowerOn with state := .predischarge, countdown := some 90000 }))
      = { shutDoor with baseMode := .lockdown, effMode := .egress } := by decide +kernel

/-- A jammed door. -/
def jammed (c : Contact) : State :=
  atDoor 31 (fun x => { x with state := .fault .boltJam, contact := some c, bolt := some .between, forced := 2 }) asking

theorem test_reset_door : (jammed .closed).Resettable 31 ∧ ¬ (asking).Resettable 31
    ∧ ((after (.resetDoor 31) (jammed .closed)).door 31).state = .bolting
    ∧ ((after (.resetDoor 31) (jammed .closed)).door 31).stepDeadline = some 8000
    ∧ ((after (.resetDoor 31) (jammed .opened)).door 31).state = .opened
    ∧ ((after (.resetDoor 31) (jammed .opened)).door 31).stepDeadline = some 65000
    ∧ answerTo (.resetDoor 31) asking = some ⟨.refused, [3]⟩ := by
  refine ⟨⟨rfl, .inl rfl⟩, ?_, by decide +kernel⟩
  rintro ⟨_, h | ⟨h, _⟩⟩ <;> revert h <;> decide

/-- A jam that clears with the bolt THROWN makes the door SECURED; one between, with a pending exit, unbolts for it. -/
theorem test_reset_door_more :
    ((after (.resetDoor 31) (atDoor 31 (fun x => { x with bolt := some .thrown }) (jammed .closed))).door 31).state = .secured
    ∧ ((after (.resetDoor 31) (atDoor 31 (fun x => { x with pendingExit := some ⟨[]⟩ }) (jammed .closed))).door 31).grant
      = some ⟨.anonymousExit, [], none⟩
    ∧ (atDoor 31 (fun x => { x with bolt := some .thrown }) (jammed .closed)).Resettable 31
    ∧ ¬ (atDoor 31 (fun x => { x with state := .fault .sensorConflict, bolt := some .conflict }) calm).Resettable 31 := by
  refine ⟨by decide +kernel, by decide +kernel, ⟨rfl, .inl rfl⟩, ?_⟩
  rintro ⟨_, h | ⟨_, h⟩⟩
  · revert h; decide
  · exact absurd rfl h

/-- Door 0 in EGRESS with an exit that names the holder, who leaves through it. -/
def egress (st : DoorState) : State :=
  atDoor 0 (fun x => { x with state := st, effMode := .egress, grant := some ⟨.exit, [4], some 6000⟩, stepDeadline := some 6000 })
    (withHolder .leaving asking)

/-- Merges at a door in EGRESS that serves an exit: RELEASED, OPEN, and CLOSED_WAIT. -/
theorem test_release_exit_merged : ((after (.releaseExit 0) (egress .released)).door 0).stepDeadline = some 13000
    ∧ (after (.releaseExit 0) (egress .opened)).doors = (egress .opened).doors
    ∧ (after (.releaseExit 0) (egress (.fault .boltJam))).doors = (egress (.fault .boltJam)).doors
    ∧ (after (.releaseExit 0) (egress .closedWait)).occupant 4 = none
    ∧ ((after (.releaseExit 0) (egress .closedWait)).door 0).grant = some ⟨.anonymousExit, [], some 13000⟩
    ∧ answerTo (.releaseExit 0) (egress .closedWait) = some ⟨.ok, [1]⟩ := by decide +kernel

/-- An exit that names a holder who has just left keeps its kind and names nobody (log 22). -/
theorem test_merge_keeps_kind :
    ((after (.presentationDecided 0) (handed 0 (card none .exit) (egress .closedWait))).door 0).grant
      = some ⟨.exit, [], some 13000⟩ := by decide +kernel

theorem test_clear_counts : ((jammed .closed).door 31).forced = 2
    ∧ ((after (.clearCounts 31) (jammed .closed)).door 31).forced = 0 := by decide +kernel

/-- Door 0 in a state, with a grant and a step deadline of 5 s, which is now. -/
def serving (st : DoorState) (g : Option Grant) (s : State) : State :=
  atDoor 0 (fun x => { x with state := st, grant := g, stepDeadline := some 5000, bolt := some .between }) s

def entryOf4 : Option Grant := some ⟨.entry, [4], some 5000⟩

theorem test_travel_limit : (serving .unbolting entryOf4 (withHolder .admitted calm)).Live
    ∧ (after (.travelLimit 0) (serving .unbolting entryOf4 (withHolder .admitted calm))).occupant 4 = none
    ∧ ((after (.travelLimit 0) (serving .bolting none calm)).door 0).state = .fault .boltJam
    ∧ ((after (.travelLimit 0) { serving .bolting none calm with uptimeMs := 4999 }).door 0).state = .bolting := by
  refine ⟨⟨rfl, rfl, rfl⟩, by decide +kernel⟩

theorem test_lapse :
    ((after (.lapse 0) (serving .released entryOf4 (withHolder .admitted calm))).door 0).state = .bolting
    ∧ (after (.lapse 0) (serving .released entryOf4 (withHolder .admitted calm))).occupant 4 = none
    ∧ (after (.lapse 0) (serving .released none (withHolder .inside calm))).occupant 4 = some (person 9 .inside) := by
  decide +kernel

/-- No pending exit names a slot of the grant; the exit a FAULT drives ends at its limit; the lapse in HOLD_OPEN keeps the
door RELEASED; with the bolt THROWN the door is SECURED at once; a pending exit begins where the grant ends. -/
theorem test_limits_more : (∀ g, entryOf4 = some g → ((serving .released entryOf4 calm).door 0).NamesApart g ∧ g.Retires)
    ∧ ((after (.travelLimit 0) (serving (.fault .sensorConflict) (some ⟨.exit, [4], none⟩) calm)).door 0).grant = none
    ∧ ((after (.travelLimit 0) (serving (.fault .sensorConflict) (some ⟨.exit, [4], none⟩) calm)).door 0).state
      = .fault .sensorConflict
    ∧ ((after (.lapse 0) (atDoor 0 (fun x => { x with effMode := .holdOpen }) (serving .released (some ⟨.exit, [4], some 5000⟩)
        calm))).door 0) = { (serving .released none calm).door 0 with effMode := .holdOpen, stepDeadline := none }
    ∧ ((after (.lapse 0) (atDoor 0 (fun x => { x with bolt := some .thrown }) (serving .released entryOf4 (withHolder .admitted
        calm)))).door 0).state = .secured
    ∧ ((after (.lapse 0) (atDoor 0 (fun x => { x with pendingExit := some ⟨[7]⟩ }) (serving .released entryOf4 (withHolder
        .admitted calm)))).door 0).grant = some ⟨.exit, [7], none⟩ := by
  refine ⟨?_, by decide +kernel⟩
  rintro g ⟨⟩
  exact ⟨fun e h => (nomatch h), .inl rfl⟩

theorem test_held_open : ((after (.heldOpenLimit 0) (serving .opened none calm)).door 0).held = 1
    ∧ ((after (.heldOpenLimit 0) (serving .opened none calm)).alarm 0).map Alarm.key
      = some ⟨.doorHeld, some 0, some 0, none, none⟩
    ∧ ((after (.heldOpenLimit 0) { serving .opened none calm with uptimeMs := 4999 }).door 0).held = 0 := by decide +kernel

theorem test_passage : ((after (.reboltDelayEnd 0) (serving .closedWait entryOf4 (withHolder .admitted calm))).occupant
      4).map Occupant.phase = some .vestibule
    ∧ ((after (.reboltDelayEnd 0) (serving .closedWait entryOf4 (withHolder .admitted calm))).door 0).passages = 1
    ∧ (after (.reboltDelayEnd 0) (serving .closedWait (some ⟨.exit, [4], none⟩) (withHolder .leaving calm))).occupant 4
      = none
    ∧ ((after (.reboltDelayEnd 0) (serving .closedWait none calm)).door 0).passages = 0 := by decide +kernel

/-- The end of the re-bolt delay with the bolt THROWN, with a pending exit, and in HOLD_OPEN. -/
theorem test_passage_more :
    ((after (.reboltDelayEnd 0) (atDoor 0 (fun x => { x with bolt := some .thrown }) (serving .closedWait entryOf4 (withHolder
      .admitted calm)))).door 0).state = .secured
    ∧ ((after (.reboltDelayEnd 0) (atDoor 0 (fun x => { x with pendingExit := some ⟨[7]⟩ }) (serving .closedWait entryOf4
      (withHolder .admitted calm)))).door 0).grant = some ⟨.exit, [7], none⟩
    ∧ ((after (.reboltDelayEnd 0) (atDoor 0 (fun x => { x with effMode := .holdOpen }) (serving .closedWait entryOf4 (withHolder
      .admitted calm)))).door 0).state = .released
    ∧ ((after (.reboltDelayEnd 0) { serving .closedWait none calm with uptimeMs := 4999 }).door 0).state = .closedWait := by
  decide +kernel

/-- A bolt THROWN and an own pending exit together: the door reaches SECURED, the cause of FORCED_DOOR ends, and the exit
begins from there (log 19). -/
def thrownPending (st : DoorState) (g : Option Grant) : State :=
  (atDoor 0 (fun x => { x with bolt := some .thrown, pendingExit := some ⟨[7]⟩ }) (serving st g calm)).setAlarm 0
    (some ⟨⟨.forcedDoor, some 0, some 0, none, none⟩, none, false, some true, 1, 0⟩)

theorem test_thrown_and_pending : ((after (.lapse 0) (thrownPending .released none)).door 0).grant = some ⟨.exit, [7], none⟩
    ∧ ((after (.lapse 0) (thrownPending .released none)).alarm 0).map Alarm.cause = some (some false)
    ∧ ((after (.reboltDelayEnd 0) (thrownPending .closedWait none)).door 0).grant = some ⟨.exit, [7], none⟩
    ∧ ((after (.reboltDelayEnd 0) (thrownPending .closedWait none)).alarm 0).map Alarm.cause = some (some false) := by
  decide +kernel

/-- A code that has been answered once at a station that is PRESENT. -/
def answered (t : StationId) (code : Byte) (s : State) : State :=
  s.setStation t { s.station t with candidate := some code }

/-- A door station with inputs that hold, and a changed code answered once. -/
def turning (old code : Byte) (s : State) : State :=
  s.setStation 0 { s.station 0 with inputs := some old, candidate := some code }

theorem turning_validates (old code : Byte) (h : codeListed (.door 0) code = true) :
    (turning old code calm).Validates 0 (.door 0) code old :=
  ⟨⟨rfl, rfl, rfl⟩, show calm.supervised 0 = true by decide +kernel, rfl, h, rfl, rfl, rfl, rfl⟩

theorem test_forced_opening : doorInputs 3 = { doorInputs 2 with contact := .opened } ∧ (doorInputs 2).contact = .closed
    ∧ codeListed (.door 0) 3 = true
    ∧ ((after (.goodAnswer 0 ⟨3, none⟩) (turning 2 3 calm)).door 0).forced = 1
    ∧ (after (.goodAnswer 0 ⟨3, none⟩) (turning 2 3 calm)).uncertain.get 0 = true
    ∧ ((after (.goodAnswer 0 ⟨3, none⟩) (turning 2 3 calm)).alarm 0).map Alarm.key
      = some ⟨.forcedDoor, some 0, some 0, none, none⟩
    ∧ ((after (.goodAnswer 0 ⟨3, none⟩) (turning 2 3 (serving .released entryOf4 calm))).door 0).state = .opened
    ∧ ((after (.goodAnswer 0 ⟨3, none⟩) (turning 2 3 (serving (.fault .boltJam) none calm))).uncertain.get 0) = true := by
  decide +kernel

/-- Contact CLOSED; bolt WITHDRAWN, THROWN, between and CONFLICT; request to exit, panic and tamper. -/
theorem test_door_inputs : doorInputs 0 = { doorInputs 1 with contact := .closed }
    ∧ doorInputs 4 = { doorInputs 0 with bolt := .withdrawn } ∧ doorInputs 2 = { doorInputs 0 with bolt := .thrown }
    ∧ doorInputs 0 = { doorInputs 2 with bolt := .between } ∧ doorInputs 6 = { doorInputs 2 with bolt := .conflict }
    ∧ doorInputs 10 = { doorInputs 2 with rte := true } ∧ doorInputs 0x12 = { doorInputs 2 with panic := true }
    ∧ doorInputs 0x22 = { doorInputs 2 with tamper := true }
    ∧ ((after (.goodAnswer 0 ⟨0, none⟩) (turning 1 0 (serving .opened none calm))).door 0).state = .closedWait
    ∧ ((after (.goodAnswer 0 ⟨4, none⟩) (turning 0 4 (serving .unbolting entryOf4 calm))).door 0).state = .released
    ∧ ((after (.goodAnswer 0 ⟨2, none⟩) (turning 0 2 (serving .bolting none calm))).door 0).state = .secured
    ∧ ((after (.goodAnswer 0 ⟨0, none⟩) (turning 2 0 calm)).door 0).state = .bolting
    ∧ ((after (.goodAnswer 0 ⟨6, none⟩) (turning 2 6 calm)).door 0).state = .fault .sensorConflict
    ∧ ((after (.goodAnswer 0 ⟨10, none⟩) (turning 2 10 calm)).door 0).grant = some ⟨.anonymousExit, [], none⟩
    ∧ ((after (.goodAnswer 0 ⟨0x12, none⟩) (turning 2 0x12 calm)).alarm 0).map (fun a => a.key.kind) = some .panic
    ∧ ((after (.goodAnswer 0 ⟨0x22, none⟩) (turning 2 0x22 calm)).alarm 0).map (fun a => a.key.kind) = some .stationLost := by
  decide +kernel

/-- Door 0 with its station LOST, and a code answered once. -/
def lostDoor (code : Byte) (m : DoorMode) : State :=
  (atDoor 0 (fun x => { x with state := .fault .stationLost, effMode := m }) calm).setStation 0
    { calm.station 0 with presence := .lost, candidate := some code }

/-- Door 0 as its station returns. -/
def returning (code : Byte) (m : DoorMode) : State := after (.goodAnswer 0 ⟨code, none⟩) (lostDoor code m)

theorem test_lost_door : (lostDoor 0x3F .normal).Live ∧ (lostDoor 0x3F .normal).supervised 0 = true
    ∧ ((lostDoor 0x3F .normal).entry 0).role = .door 0 ∧ codeListed (.door 0) 0x3F = true ∧ codeListed (.door 0) 0x40 = false
    ∧ ((lostDoor 0x3F .normal).station 0).presence ≠ .present ∧ ((lostDoor 0x3F .normal).station 0).handshake = .idle
    ∧ ((lostDoor 0x3F .normal).station 0).candidate = some 0x3F ∧ ((lostDoor 0x3F .normal).door 0).state = .fault .stationLost
    ∧ ((lostDoor 0x3F .normal).door (partner 0)).pendingExit = none
    ∧ ((lostDoor 0x3F .normal).door (partner 0)).effMode ≠ .holdOpen :=
  ⟨⟨rfl, rfl, rfl⟩, by decide +kernel⟩

/-- The rows of R61, and a waiting HOLD_OPEN. -/
theorem test_station_return : ((returning 2 .normal).station 0).presence = .present
    ∧ ((returning 2 .normal).door 0).state = .secured ∧ ((returning 4 .normal).door 0).state = .released
    ∧ ((returning 4 .lockdown).door 0).state = .bolting ∧ ((returning 0 .normal).door 0).state = .bolting
    ∧ ((returning 1 .normal).door 0).state = .opened ∧ (returning 1 .normal).uncertain.get 0 = true
    ∧ ((returning 6 .normal).door 0).state = .fault .sensorConflict ∧ ((returning 2 .holdOpen).door 0).state = .unbolting
    ∧ ((returning 0 .holdOpen).door 0).state = .unbolting ∧ ((returning 4 .holdOpen).door 0).state = .released
    ∧ ((returning 10 .normal).door 0).grant = none := by decide +kernel

/-! ### Zones -/

/-- A part with zone 0 changed. -/
def atZone (f : Zone → Zone) (s : State) : State := s.setZone 0 (f (s.zone 0))

theorem test_isolate_zone : ModesComputed (asking true) ∧ (asking true).inContact 15 = true
    ∧ ¬ ((asking true).zone 15).Detects ∧ ((after (.isolateZone 15) (asking true)).zone 15).state = .isolated
    ∧ answerTo (.isolateZone 15) asking = some ⟨.privilege, []⟩
    ∧ answerTo (.isolateZone 0) ((asking true).setStation 2 Station.atPowerOn) = some ⟨.refused, [6]⟩
    ∧ ((after (.isolateZone 0) ((asking true).setStation 2 Station.atPowerOn)).zone 0).isolationRefusal = some .stationLost
    ∧ answerTo (.isolateZone 0) (atZone (fun x => { x with detectorA := .alarm }) (asking true)) = some ⟨.refused, [5]⟩
    ∧ answerTo (.isolateZone 0) (atZone (fun x => { x with state := .firstAlarm }) (asking true)) = some ⟨.refused, [4]⟩ := by
  refine ⟨calm_modes, by decide +kernel, ?_, by decide +kernel⟩
  rintro (h | h | h) <;> revert h <;> decide

/-- A second refusal for the same cause is marked again, though the record does not change. -/
theorem test_isolation_refused_again : let s := { after (.isolateZone 0) (atZone (fun x => { x with state := .firstAlarm })
      (asking true)) with framer := ⟨.receiving, none⟩, changes := unmarked }
    s.Ready ∧ (after (.isolateZone 0) s).zones = s.zones ∧ (after (.isolateZone 0) s).changes.has (.zone 0) = true :=
  ⟨⟨by decide +kernel, rfl, by decide +kernel⟩, by decide +kernel, by decide +kernel⟩

theorem test_restore_zone : ((atZone (fun x => { x with state := .isolated }) (asking true)).zone 0).state = .isolated
    ∧ ((after (.restoreZone 0) (atZone (fun x => { x with state := .isolated }) (asking true))).zone 0).state = .normal
    ∧ answerTo (.restoreZone 15) (asking true) = some ⟨.refused, [3]⟩
    ∧ answerTo (.restoreZone 0) (atZone (fun x => { x with state := .isolated, manualRelease := true }) (asking true))
      = some ⟨.refused, [5]⟩ := by decide +kernel

/-- A zone in RELEASE_FAILED, its doors SEALED, with its alarm. -/
def failed : State :=
  ((atZone (fun x => { x with state := .releaseFailed, attempt := .reserve }) (asking true)).modDoor 0 fun x =>
    { x with effMode := .sealed }).modDoor 1 fun x => { x with effMode := .sealed }

def failedAlarm : State :=
  failed.setAlarm 0 (some ⟨⟨.suppressionFailed, some 0, none, none, none⟩, none, false, some true, 1, 0⟩)

theorem test_reset_zone : failedAlarm.Ready ∧ ModesComputed failedAlarm ∧ failedAlarm.inContact 0 = true
    ∧ ((after (.resetZone 0) failedAlarm).zone 0).state = .normal
    ∧ ((after (.resetZone 0) failedAlarm).door 1).effMode = .normal
    ∧ ((after (.resetZone 0) failedAlarm).alarm 0).map Alarm.cause = some (some false)
    ∧ answerTo (.resetZone 0) { failed with keyOn := false } = some ⟨.privilege, []⟩
    ∧ answerTo (.resetZone 15) (asking true) = some ⟨.refused, [3]⟩
    ∧ answerTo (.resetZone 0) (failed.setStation 2 Station.atPowerOn) = some ⟨.refused, [6]⟩
    ∧ answerTo (.resetZone 0) (atZone (fun x => { x with detectorB := .fault }) failed) = some ⟨.refused, [5]⟩ := by
  refine ⟨⟨rfl, rfl, rfl⟩, ?_, by decide +kernel⟩
  show ∀ d : DoorNo, (failedAlarm.door d).effMode
    = effectiveMode (failedAlarm.zone (roomOf d)).state (failedAlarm.door d).baseMode
  decide +kernel

/-- RESET ZONE with an outer door of base mode HOLD_OPEN, which withdraws and sets the strongroom UNCERTAIN, and an inner door
in LOCKDOWN; from FIRST_ALARM the doors keep their records. -/
theorem test_reset_zone_modes : let s := failed.modDoor 0 fun x => { x with baseMode := .holdOpen }
    let u := failed.modDoor 1 fun x => { x with baseMode := .outOfService, state := .opened, stepDeadline := some 9000 }
    let v := atZone (fun x => { x with state := .firstAlarm }) (asking false)
    ((after (.resetZone 0) s).door 0).state = .unbolting ∧ (after (.resetZone 0) s).uncertain.get 0 = true
      ∧ (after (.resetZone 0) s).door 1 = { s.door 1 with effMode := .normal }
      ∧ ((after (.resetZone 0) u).door 1).stepDeadline = none ∧ (after (.resetZone 0) u).uncertain = u.uncertain
      ∧ ((after (.resetZone 0) (u.modDoor 1 fun x => { x with state := .released, bolt := some .between })).door 1).state
        = .bolting
      ∧ ((after (.resetZone 0) v).zone 0).state = .normal ∧ (after (.resetZone 0) v).doors = v.doors := by decide +kernel

/-- Both detectors in ALARM read twice at the zone station of a quiet zone. -/
theorem test_confirmed_fire : (answered 2 5 calm).Live ∧ calm.supervised 2 = true ∧ (calm.entry 2).role = .zone 0
    ∧ zoneInputs? 5 = some ⟨.alarm, .alarm, false, false, false, false⟩ ∧ zoneInputs? 2 = some ⟨.fault, .normal, false, false, false, false⟩
    ∧ ((after (.goodAnswer 2 ⟨5, none⟩) (answered 2 5 calm)).zone 0).state = .predischarge
    ∧ ((after (.goodAnswer 2 ⟨5, none⟩) (answered 2 5 calm)).zone 0).countdown = some 35000
    ∧ ((after (.goodAnswer 2 ⟨5, none⟩) (answered 2 5 calm)).door 1).effMode = .egress
    ∧ (after (.goodAnswer 2 ⟨5, none⟩) (answered 2 5 calm)).lines.suppressionActive = true := by
  refine ⟨⟨rfl, rfl, rfl⟩, by decide +kernel⟩

/-- Zone 0 in PREDISCHARGE, its doors in EGRESS, its countdown ending now. -/
def counting (s : State) : State :=
  (((atZone (fun x => { x with state := .predischarge, countdown := some 5000 }) s).modDoor 0 fun x =>
    { x with effMode := .egress }).modDoor 1 fun x => { x with effMode := .egress })

theorem test_countdown_end : (counting calm).Live ∧ (counting calm).ReleaseSafe 0 ∧ ModesComputed (counting calm)
    ∧ ((after (.countdownEnd 0) (counting calm)).zone 0).state = .releasing
    ∧ ((after (.countdownEnd 0) (counting calm)).zone 0).mainFire = true
    ∧ ((after (.countdownEnd 0) (counting calm)).zone 0).pulseEnd = some 5500
    ∧ ((after (.countdownEnd 0) (counting calm)).door 0).effMode = .sealed
    ∧ ((after (.countdownEnd 0) { counting calm with uptimeMs := 4999 }).zone 0).state = .predischarge := by
  refine ⟨⟨rfl, rfl, rfl⟩, ⟨rfl, by decide, rfl, rfl, rfl, by decide +kernel⟩, ?_, by decide +kernel⟩
  show ∀ d : DoorNo, ((counting calm).door d).effMode
    = effectiveMode ((counting calm).zone (roomOf d)).state ((counting calm).door d).baseMode
  decide +kernel

theorem test_countdown_holds : ¬ (counting (calm.claimUncertain 0)).ReleaseSafe 0
    ∧ ((after (.countdownEnd 0) (counting (calm.claimUncertain 0))).zone 0).state = .held
    ∧ ((after (.countdownEnd 0) (counting (calm.claimUncertain 0))).zone 0).holdReasons = ⟨false, false, true, false, false⟩
    ∧ ((after (.countdownEnd 0) (atZone (fun x => { x with pressure := true }) (counting calm))).zone 0).state
      = .discharged := by
  refine ⟨fun h => absurd h.certain (by decide), by decide +kernel⟩

/-- Zone 0 in RELEASING, its doors SEALED, pulse and confirm window ending now. -/
def releasing (a : Attempt) : State :=
  (((atZone (fun x => { x with state := .releasing, attempt := a, mainFire := true, pulseEnd := some 5000, confirmEnd := some 5000 })
    calm).modDoor 0 fun x => { x with effMode := .sealed }).modDoor 1 fun x => { x with effMode := .sealed })

theorem test_attempts : (releasing .main).Live ∧ ModesComputed (releasing .main)
    ∧ ((after (.pulseEnd 0) (releasing .main)).zone 0).mainFire = false
    ∧ ((after (.confirmEnd 0) (releasing .main)).zone 0).reserveFire = true
    ∧ ((after (.confirmEnd 0) (releasing .reserve)).zone 0).state = .releaseFailed
    ∧ ((after (.confirmEnd 0) (releasing .reserve)).alarm 0).map Alarm.key
      = some ⟨.suppressionFailed, some 0, none, none, none⟩ := by
  refine ⟨⟨rfl, rfl, rfl⟩, ?_, by decide +kernel⟩
  show ∀ d : DoorNo, ((releasing .main).door d).effMode
    = effectiveMode ((releasing .main).zone (roomOf d)).state ((releasing .main).door d).baseMode
  decide +kernel

/-- The zone station with inputs that hold, and a changed code answered once. -/
def zoneTurning (old code : Byte) (s : State) : State :=
  s.setStation 2 { s.station 2 with inputs := some old, candidate := some code }

/-- The abort switch held over the zone. -/
def aborting (others : HoldReasons) : State :=
  atZone (fun x => { x with state := .held, countdown := none, abort := true, holdReasons := others })
    (counting calm)

/-- The zone station's changed codes validate in each of the states below, whose modes are computed. -/
theorem test_zone_inputs_met :
    (zoneTurning 0 1 (serving .released entryOf4 (withHolder .admitted calm))).Validates 2 (.zone 0) 1 0
    ∧ ModesComputed (zoneTurning 0 1 (serving .released entryOf4 (withHolder .admitted calm)))
    ∧ (zoneTurning 0 0x10 (counting calm)).Validates 2 (.zone 0) 0x10 0 ∧ ModesComputed (zoneTurning 0 0x10 (counting calm))
    ∧ (zoneTurning 0x10 0 (aborting ⟨true, false, false, false, false⟩)).Validates 2 (.zone 0) 0 0x10
    ∧ ModesComputed (zoneTurning 0x10 0 (aborting ⟨true, false, false, false, false⟩))
    ∧ (zoneTurning 0 0x40 (releasing .main)).Validates 2 (.zone 0) 0x40 0 ∧ ModesComputed (zoneTurning 0 0x40 (releasing .main))
    ∧ (ZoneInputs.zonePart ⟨.alarm, .normal, false, false, false, false⟩
      ≠ ZoneInputs.zonePart ⟨.normal, .normal, false, false, false, false⟩) := by
  unfold ModesComputed
  exact ⟨⟨⟨rfl, rfl, rfl⟩, by decide +kernel, rfl, rfl, rfl, rfl, rfl, rfl⟩, by decide +kernel,
    ⟨⟨rfl, rfl, rfl⟩, by decide +kernel, rfl, rfl, rfl, rfl, rfl, rfl⟩, by decide +kernel,
    ⟨⟨rfl, rfl, rfl⟩, by decide +kernel, rfl, rfl, rfl, rfl, rfl, rfl⟩, by decide +kernel,
    ⟨⟨rfl, rfl, rfl⟩, by decide +kernel, rfl, rfl, rfl, rfl, rfl, rfl⟩, by decide +kernel, by decide⟩

/-- One detector: FIRST_ALARM, which sends a RELEASED entry back; abort under confirmed fire and in PREDISCHARGE: HELD; the
end of the abort with a reason left and with none; pressure in RELEASING: DISCHARGED; a zone ISOLATED stays. -/
theorem test_zone_inputs : zoneInputs? 1 = some ⟨.alarm, .normal, false, false, false, false⟩
    ∧ ((after (.goodAnswer 2 ⟨1, none⟩) (zoneTurning 0 1 (serving .released entryOf4 (withHolder .admitted calm)))).zone 0).state
      = .firstAlarm
    ∧ ((after (.goodAnswer 2 ⟨1, none⟩) (zoneTurning 0 1 (serving .released entryOf4 (withHolder .admitted calm)))).door 0).state
      = .bolting
    ∧ (after (.goodAnswer 2 ⟨1, none⟩) (zoneTurning 0 1 (serving .released entryOf4 (withHolder .admitted calm)))).occupant 4
      = none
    ∧ ((after (.goodAnswer 2 ⟨0x30, none⟩) (zoneTurning 0 0x30 calm)).zone 0).holdReasons = ⟨true, false, false, false, false⟩
    ∧ ((after (.goodAnswer 2 ⟨0x10, none⟩) (zoneTurning 0 0x10 (counting calm))).zone 0).state = .held
    ∧ ((after (.goodAnswer 2 ⟨0, none⟩) (zoneTurning 0x10 0 (aborting ⟨true, false, false, false, false⟩))).zone 0).countdown
      = some 20000
    ∧ ((after (.goodAnswer 2 ⟨0, none⟩) (zoneTurning 0x10 0 (aborting ⟨true, false, true, false, false⟩))).zone 0).state = .held
    ∧ ((after (.goodAnswer 2 ⟨0x40, none⟩) (zoneTurning 0 0x40 (releasing .main))).zone 0).state = .discharged
    ∧ (after (.goodAnswer 2 ⟨5, none⟩) (zoneTurning 0 5 (atZone (fun x => { x with state := .isolated }) calm))).zone 0
      = { Zone.atPowerOn with state := .isolated, detectorA := .alarm, detectorB := .alarm } := by decide +kernel

/-- Zone 0 in HELD over an UNCERTAIN strongroom, one second before the hold limit. -/
def holding : State :=
  atZone (fun x => { x with state := .held, holdReasons := ⟨false, false, true, false, false⟩, heldFor := 179 })
    (calm.claimUncertain 0)

/-- The count that reaches the limit waits for its event, which takes it and raises TRAPPED; the emptying of the set taken
first leaves it uncounted, and taken afterwards it ends the cause. -/
theorem test_hold_limit : holding.Live ∧ ((after .uptimeSecond holding).zone 0).heldFor = 179
    ∧ ((after .uptimeSecond holding).zone 0).countsDue = 1
    ∧ ((after (.holdLimitReached 0) (after .uptimeSecond holding)).zone 0).heldFor = 180
    ∧ ((after (.holdLimitReached 0) (after .uptimeSecond holding)).zone 0).trappedRaised = true
    ∧ firstAlarm (after (.holdLimitReached 0) (after .uptimeSecond holding))
      = some (⟨.trapped, some 0, none, none, none⟩, some true)
    ∧ ((after (.holdLimitReached 0) holding).alarm 0) = none := by
  refine ⟨⟨rfl, rfl, rfl⟩, by decide +kernel⟩

/-- CONFIRM VACANT of strongroom 0, with the engineer key on. -/
def vacated (s : State) : State := after (.confirmVacant 0) { s with framer := ⟨.receiving, none⟩, keyOn := true }

theorem test_hold_limit_orders : ((vacated (after .uptimeSecond holding)).zone 0).state = .predischarge
    ∧ firstAlarm (after (.holdLimitReached 0) (vacated (after .uptimeSecond holding))) = none
    ∧ firstAlarm (vacated (after (.holdLimitReached 0) (after .uptimeSecond holding)))
      = some (⟨.trapped, some 0, none, none, none⟩, some false) := by decide +kernel

/-! ### Alarms and watches -/

/-- A full table of records that no raise may replace. -/
def full : Table 24 (Option Alarm) :=
  Table.replicate 24 (some ⟨⟨.panic, none, none, none, some 63⟩, none, false, some true, 1, 0⟩)

/-- In a full table of RAISED records the raise is lost. -/
theorem test_unescorted_lost :
    (after (.retireOccupant 4) { escortedVisitor asking with alarms := full }).lostCount = 1 := by decide +kernel

/-- Alarm slot 23 holds a LONE_WORKER record of slot 4. -/
def alarmed (ack : Bool) (cause : Bool) (s : State) : State :=
  s.setAlarm 23 (some ⟨⟨.loneWorker, some 0, none, some 4, none⟩, some 9, ack, some cause, 2, 0⟩)

theorem test_read_alarm : answerTo (.readAlarm 23) (alarmed true false asking)
      = some ⟨.ok, [4, 2, 0, 0xFF, 4, 0, 9, 0xFF, 1, 0, 0, 0, 0, 2, 0]⟩
    ∧ answerTo (.readAlarm 22) asking = some ⟨.notFound, []⟩ ∧ answerTo (.readAlarm 24) asking = some ⟨.badValue, []⟩ := by
  decide +kernel

theorem test_acknowledge : ((after (.acknowledgeAlarm 23) (alarmed false true asking)).alarm 23).map Alarm.acknowledged
      = some true
    ∧ answerTo (.acknowledgeAlarm 23) (low (alarmed false true asking)) = some ⟨.refused, [3]⟩
    ∧ answerTo (.clearAlarm 23) (alarmed false false asking) = some ⟨.refused, [3]⟩
    ∧ (low asking).inLow = true := by decide +kernel

/-- The end of its alarm ends the watch of a record that does not qualify, and restarts one that does. -/
theorem test_clear_alarm : (after (.clearAlarm 23) (alarmed true false (asking.setOccupant 4 (some
      { person 9 .inside with watch := some ⟨.three, none, 1⟩ })))).alarm 23 = none
    ∧ (after (.clearAlarm 23) (alarmed true false (day (asking.setOccupant 4 (some
      { person 9 .inside with watch := some ⟨.three, none, 1⟩ }))))).watch 4 = none
    ∧ (after (.clearAlarm 23) (alarmed true false (withHolder .inside asking |>.setWatch 4 (some ⟨.three, none, 1⟩)))).watch 4
      = some ⟨.zero, some 1205000, 5000⟩
    ∧ (after (.clearAlarm 23) { alarmed true false asking with overflow := true }).overflow = false := by decide +kernel

/-- The overflow condition clears with a watch at stage 3 that no record names: LONE_WORKER is raised in the slot freed. -/
theorem test_clear_alarm_catch_up : let s : State := { (withHolder .inside asking).setWatch 4 (some ⟨.three, some 9000, 1⟩) with
      overflow := true, lostCount := 1
      alarms := full.set 0 (some ⟨⟨.doorHeld, none, none, none, none⟩, none, true, some false, 1, 0⟩) }
    s.Ready ∧ (after (.clearAlarm 0) s).overflow = false ∧ (after (.clearAlarm 0) s).lostCount = 1
      ∧ (after (.clearAlarm 0) s).alarm 0 = some ⟨⟨.loneWorker, some 0, none, some 4, none⟩, some 9, false, some true, 5, 0⟩
      ∧ (after (.clearAlarm 0) s).watch 4 = some ⟨.three, none, 5000⟩ := by
  exact ⟨⟨rfl, rfl, rfl⟩, by decide +kernel⟩

theorem test_clear_lost_count : (after .clearLostCount { asking with lostCount := 3, overflow := true }).lostCount = 0
    ∧ (after .clearLostCount { asking with lostCount := 3, overflow := true }).overflow = true := by decide +kernel

/-- A holder with a watch whose deadline is now. -/
def watchAt (st : WatchStage) : State := (withHolder .inside calm).setWatch 4 (some ⟨st, some 5000, 1⟩)

theorem test_watch_deadline : (watchAt .zero).Live
    ∧ (after (.watchDeadline 4) (watchAt .zero)).watch 4 = some ⟨.one, some 65000, 5000⟩
    ∧ (after (.watchDeadline 4) (watchAt .one)).watch 4 = some ⟨.two, some 65000, 5000⟩
    ∧ (after (.watchDeadline 4) (watchAt .two)).watch 4 = some ⟨.three, none, 5000⟩
    ∧ ((after (.watchDeadline 4) (watchAt .two)).alarm 0).map Alarm.key = some ⟨.loneWorker, some 0, none, some 4, none⟩
    ∧ (after (.watchDeadline 4) { watchAt .zero with uptimeMs := 4999 }).watch 4 = some ⟨.zero, some 5000, 1⟩ := by
  refine ⟨⟨rfl, rfl, rfl⟩, by decide +kernel⟩

/-- An hours window on weekday 0 from 00:08 up to 00:10. -/
def morning (s : State) : State :=
  { s with settings := { s.settings with windows := s.settings.windows.set 15 (some ⟨1, 8, 10⟩) } }

/-- The holder passes door 1 under a grant, in AFTER_HOURS. -/
def passing (k : GrantKind) (s : State) : State :=
  after (.reboltDelayEnd 1)
    (atDoor 1 (fun x => { x with state := .closedWait, grant := some ⟨k, [4], none⟩, stepDeadline := some 5000 }) s)

/-- The minute 00:08, at which the morning window begins. -/
def morningBegins (s : State) : State := after .minuteBoundary (morning { s with wall := some ⟨7, 60⟩ })

/-- Passing into INSIDE starts a watch and passing out ends it; DAY ends one below stage 3 and leaves one at stage 3; the
supply restart extends a deadline by the time in LOW. -/
theorem test_watch_follows : (passing .innerEntry (withHolder .vestibule calm)).watch 4 = some ⟨.zero, some 1205000, 5000⟩
    ∧ (passing .exit (watchAt .one)).watch 4 = none ∧ (morningBegins (watchAt .one)).watch 4 = none
    ∧ (morningBegins (watchAt .three)).watch 4 = some ⟨.three, some 5000, 1⟩
    ∧ (after .supplyRestart { watchAt .one with supply := .low { calm.lowPeriod with since := 3000 } }).watch 4
      = some ⟨.one, some 7000, 1⟩ := by decide +kernel

theorem test_lone_worker_lost : (after (.loneWorkerRepeat 4) { watchAt .three with alarms := full }).watch 4
      = some ⟨.three, some 65000, 5000⟩
    ∧ (after (.loneWorkerRepeat 4) { watchAt .three with alarms := full }).lostCount = 1
    ∧ (after (.loneWorkerRepeat 4) { watchAt .three with alarms := full }).overflow = true
    ∧ (after (.loneWorkerRepeat 4) (watchAt .three)).watch 4 = some ⟨.three, none, 5000⟩ := by decide +kernel

def panicRaise : AlarmRaise := ⟨⟨.panic, none, none, none, some 3⟩, none⟩

theorem test_take_raise : (calm.takeRaise panicRaise).1.alarm 0
      = some ⟨⟨.panic, none, none, none, some 3⟩, none, false, some true, 5, 0⟩
    ∧ ((calm.takeRaise panicRaise).1.takeRaise panicRaise).1.alarm 0
      = some ⟨⟨.panic, none, none, none, some 3⟩, none, false, some true, 5, 1⟩
    ∧ ({ calm with alarms := full }.takeRaise panicRaise).1.lostCount = 1
    ∧ ({ calm with alarms := full.set 23 (some ⟨⟨.doorHeld, none, none, none, none⟩, none, true, some false, 1, 0⟩) }.takeRaise
      panicRaise).1.alarm 23 = some ⟨⟨.panic, none, none, none, some 3⟩, none, false, some true, 5, 0⟩ := by decide +kernel

/-! ### Clock -/

/-- The wall clock at a minute and second. -/
def clockAt (m sec : Nat) (s : State) : State := { s with wall := some ⟨m, sec⟩ }

theorem test_uptime_second : (after .uptimeSecond calm).uptimeMs = 6000
    ∧ (after .uptimeSecond (clockAt 7 58 calm)).wall = some ⟨7, 59⟩
    ∧ (after .uptimeSecond { calm with uptimeMs := 4294967295000 }).uptimeMs = 4294967295000 := by decide +kernel

/-- The minute, its sweep and its decision move together, at the boundary; each of two late boundaries takes its own minute;
one that is not due changes nothing; after the last minute the clock is invalid. -/
theorem test_minute_boundary : (after .uptimeSecond (clockAt 7 59 calm)).wall = some ⟨7, 60⟩
    ∧ (after .minuteBoundary (clockAt 7 60 calm)).wall = some ⟨8, 0⟩
    ∧ (after .minuteBoundary (clockAt 7 60 (morning calm))).decision = .day
    ∧ (after .minuteBoundary (clockAt 7 125 calm)).wall = some ⟨8, 65⟩
    ∧ (after .minuteBoundary (clockAt 8 65 calm)).wall = some ⟨9, 5⟩
    ∧ (after .minuteBoundary (clockAt 7 59 calm)).wall = some ⟨7, 59⟩
    ∧ (after .minuteBoundary (clockAt 16777215 60 calm)).wall = none
    ∧ (after .minuteBoundary (clockAt 7 60 (calm.setPermit 9 (some { staff 77 with expiry := some 8 })))).permit 9
      = none := by decide +kernel

/-- A permit that expires in minute 8, at the boundary into it: first in its instant it is admitted, and linked it becomes
RETIRING (R18, R149); a millisecond or a second later, unswept, it is denied EXPIRED (R16, R18); swept it is gone. -/
theorem test_expiry_at_boundary : let s := asking.setPermit 9 (some { staff 77 with expiry := some 8 })
    let due := after .uptimeSecond (clockAt 7 59 (day s))
    answerTo (.grantEntry 0 9) due = some ⟨.ok, [0]⟩
      ∧ ((after .minuteBoundary (after (.grantEntry 0 9) due)).permit 9).map (fun m => (m.state, m.occupant))
        = some (.retiring, some 0)
      ∧ answerTo (.grantEntry 0 9) due.idle = some ⟨.refused, [0x0C]⟩
      ∧ answerTo (.grantEntry 0 9) (after .uptimeSecond due) = some ⟨.refused, [0x0C]⟩
      ∧ answerTo (.grantEntry 0 9) (after .minuteBoundary due.idle) = some ⟨.notFound, []⟩
      ∧ answerTo (.grantEntry 0 9) (clockAt 8 0 (day s)) = some ⟨.refused, [0x0C]⟩ := by decide +kernel

/-- The minute that the expiry test reads, at the ends of the instants at which it moves. -/
theorem test_minute_read : (clockAt 7 60 { calm with uptimeMs := 6000 }).minuteRead ⟨7, 60⟩ = 7
    ∧ (clockAt 7 60 { calm with uptimeMs := 6001 }).minuteRead ⟨7, 60⟩ = 8
    ∧ (clockAt 7 59 { calm with uptimeMs := 5999 }).minuteRead ⟨7, 59⟩ = 7
    ∧ (clockAt 7 120 { calm with uptimeMs := 6000 }).minuteRead ⟨7, 120⟩ = 8
    ∧ (clockAt 7 0 { calm with uptimeMs := 6000 }).minuteRead ⟨7, 0⟩ = 7 := by decide +kernel

/-- While a minute boundary is due, READ CLOCK answers second 59 of the old minute. -/
theorem test_read_clock_due : answerTo .readClock (clockAt 7 60 asking) = answerTo .readClock (clockAt 7 59 asking) := by
  decide +kernel

theorem test_set_clock : answerTo (.setClock 9 60) asking = some ⟨.badValue, []⟩
    ∧ (after (.setClock 9 59) asking).wall = some ⟨9, 59⟩
    ∧ (after (.setClock 9 59) (morning asking)).decision = .day
    ∧ (after (.setClock 10 0) (morning asking)).decision = .afterHours
    ∧ (after (.setClock 9 59) (clockAt 9 59 asking)).changes.clock = true := by decide +kernel

theorem test_read_clock : answerTo .readClock asking
      = some ⟨.ok, [0, 0, 0, 5, 0, 0, 0, 0xFF, 0xFF, 0xFF, 0xFF, 0xFF, 0xFF, 0xFF, 0xFF, 0xFF, 1, 0, 0, 0, 0, 0]⟩
    ∧ answerTo .readClock (clockAt 11521 30 asking)
      = some ⟨.ok, [0, 0, 0, 5, 0, 0, 1, 0, 0x2D, 0x01, 30, 0x05, 0xA1, 1, 0, 1, 1, 0, 0, 0, 0, 0]⟩ := by
  decide +kernel

/-- A window's end of 1440 is in range and its start of 1440 is not. -/
theorem test_windows : answerTo (.readWindow 15) (morning (clockAt 9 0 asking)) = some ⟨.ok, [1, 1, 0, 8, 0, 10, 1]⟩
    ∧ answerTo (.readWindow 14) (morning asking) = some ⟨.ok, [0, 0, 0, 0, 0, 0, 0]⟩
    ∧ answerTo (.writeWindow 15 ⟨1, 1, 8, 10⟩) asking = some ⟨.privilege, []⟩
    ∧ answerTo (.writeWindow 15 ⟨1, 1, 1440, 1440⟩) (asking true) = some ⟨.badValue, []⟩
    ∧ (after (.writeWindow 15 ⟨1, 127, 0, 1440⟩) (clockAt 9 0 (asking true))).decision = .day
    ∧ (after (.writeWindow 15 ⟨0, 0, 0, 0⟩) (morning (asking true))).settings.windows.get 15 = none := by decide +kernel

theorem test_is_window : (⟨1, 127, 0, 1440⟩ : WindowFields).IsWindow
    ∧ ¬ (⟨1, 1, 1440, 1440⟩ : WindowFields).IsWindow ∧ ¬ (⟨1, 128, 0, 1⟩ : WindowFields).IsWindow := by
  refine ⟨by constructor <;> decide, fun h => absurd h.start (by decide), fun h => absurd h.days (by decide)⟩

theorem test_reference : (after .referenceEdge calm).reference = ⟨.returning, 5, some 7000⟩
    ∧ (after .provingPeriodEnd { after .referenceEdge calm with uptimeMs := 7000 }).reference = ⟨.reference, 7, none⟩
    ∧ (after .provingPeriodEnd { after .referenceEdge calm with uptimeMs := 6999 }).reference.state = .returning
    ∧ (after .provingPeriodEnd (after .referenceEdge { calm with uptimeMs := 4294967295000 })).reference
      = ⟨.reference, 4294967295, none⟩
    ∧ (after .referenceGap (after .referenceEdge calm)).reference = ⟨.backup, 5, none⟩ := by decide +kernel

/-! ### Settings, loops, power -/

/-- The numbers at which the ranges of setting numbers meet. -/
theorem test_setting_numbers : settingItem? 63 = some (.station 63) ∧ UnassignedSetting 64 ∧ UnassignedSetting 255
    ∧ settingItem? 508 = some (.door 31 .heldOpenLimit) ∧ UnassignedSetting 509 ∧ settingItem? 512 = some (.zone 0 .predischarge)
    ∧ settingItem? 638 = some (.zone 15 .checkIn) ∧ UnassignedSetting 639 ∧ UnassignedSetting 767
    ∧ settingItem? 768 = some (.global .missLimit) ∧ settingItem? 772 = some (.global .grace2) ∧ UnassignedSetting 773
    ∧ ¬ UnassignedSetting 508 := by
  refine ⟨rfl, ?_, ?_, rfl, ?_, rfl, rfl, ?_, ?_, rfl, rfl, ?_, ?_⟩ <;> simp [UnassignedSetting]

theorem test_read_setting : answerTo (.readSetting 1) asking = some ⟨.ok, [1, 1, 0, 0]⟩
    ∧ answerTo (.readSetting 508) asking = some ⟨.ok, [0, 0, 0, 60]⟩
    ∧ answerTo (.readSetting 772) asking = some ⟨.ok, [0, 0, 0, 60]⟩
    ∧ answerTo (.readSetting 773) asking = some ⟨.badValue, []⟩ := by decide +kernel

theorem test_write_setting : answerTo (.writeSetting 772 30) asking = some ⟨.privilege, []⟩
    ∧ answerTo (.writeSetting 772 30) { asking true with commit := some Settings.factory } = some ⟨.busy, []⟩
    ∧ answerTo (.writeSetting 772 301) (asking true) = some ⟨.badValue, []⟩
    ∧ (after (.writeSetting 772 300) (asking true)).settings.grace2 = 300
    ∧ answerTo (.writeSetting 516 0) (withHolder .inside (asking true)) = some ⟨.badValue, []⟩
    ∧ answerTo (.writeSetting 516 1) ((withHolder .inside (asking true)).setList 0 [4, 5]) = some ⟨.refused, [1]⟩
    ∧ ((after (.writeSetting 505 12) { jammed .closed with keyOn := true }).door 31).forced = 0
    ∧ ((after (.writeSetting 505 3) { jammed .closed with keyOn := true }).door 31).forced = 2 := by decide +kernel

theorem test_setting_ranges : (SettingItem.global .grace2).Takes 300 ∧ ¬ (SettingItem.global .grace2).Takes 301
    ∧ (SettingItem.global .grace2).Takes 30 ∧ ¬ (SettingItem.global .grace2).Takes 29 := by
  refine ⟨?_, ?_, ?_, ?_⟩ <;> simp [SettingItem.Takes]

/-- Address 0 changes from door 0 to MUSTER. -/
theorem test_station_role : stationEntry? 0x03000000 = some ⟨.muster, false⟩ ∧ (calm.entry 0) = ⟨.door 0, false⟩
    ∧ ((after (.writeSetting 0 0x03000000) (asking true)).door 0).state = .fault .stationLost
    ∧ (after (.writeSetting 0 0x03000000) (asking true)).station 0 = Station.atPowerOn
    ∧ ((after (.writeSetting 0 0x03000000) (asking true)).entry 0).role = .muster
    ∧ answerTo (.writeSetting 0 0x01010000) (asking true) = some ⟨.refused, [1]⟩
    ∧ answerTo (.writeSetting 0 0x03000000) (atDoor 0 (fun x => { x with state := .opened }) (asking true))
      = some ⟨.refused, [1]⟩
    ∧ answerTo (.writeSetting 2 0x03000000) (atZone (fun x => { x with state := .held }) (asking true))
      = some ⟨.refused, [1]⟩ := by decide +kernel

/-- The values at the ends of a station entry's ranges. -/
theorem test_malformed_entry : MalformedEntry 0x04000000 ∧ MalformedEntry 0x01200000 ∧ MalformedEntry 0x02100000
    ∧ MalformedEntry 0x03010000 ∧ MalformedEntry 0x00010000 ∧ MalformedEntry 0x00000200 ∧ MalformedEntry 0x00000001
    ∧ stationEntry? 0x011F0100 = some ⟨.door 31, true⟩
    ∧ stationEntry? 0x020F0000 = some ⟨.zone 15, false⟩ ∧ answerTo (.writeSetting 0 0x04000000) (asking true) = some ⟨.badValue, []⟩ := by
  unfold MalformedEntry
  refine ⟨?_, ?_, ?_, ?_, ?_, ?_, ?_, ?_, ?_, ?_⟩ <;> decide +kernel

/-- A last flag set on slot 0 of loop 0 takes the door of address 1 out of the poll cycle, and is refused while the door is
open; set on slot 15, which ends the cycle already, it takes nobody out. -/
theorem test_last_flag : (asking true).LeavesService 0 ⟨.door 0, true⟩ 1
    ∧ ¬ (asking true).ServedElsewhere 0 (.door 0) ∧ stationEntry? 0x01000100 = some ⟨.door 0, true⟩
    ∧ ((after (.writeSetting 0 0x01000100) (asking true)).door 1).state = .fault .stationLost
    ∧ (after (.writeSetting 0 0x01000100) (asking true)).station 1 = Station.atPowerOn
    ∧ (after (.writeSetting 0 0x01000100) (asking true)).station 0 = calm.station 0
    ∧ answerTo (.writeSetting 0 0x01000100) (atDoor 1 (fun x => { x with state := .opened }) (asking true))
      = some ⟨.refused, [1]⟩
    ∧ (after (.writeSetting 63 0x03000100) (asking true)).doors = calm.doors := by
  refine ⟨.inr ⟨by decide +kernel, fun v h1 h2 => ?_, fun h => ?_⟩, ?_, by decide +kernel⟩
  · have e : ∀ v : StationId, ((asking true).entry v).last = false := by decide +kernel
    exact e v
  · exact absurd (h 0 (by decide) (by decide)) (by decide +kernel)
  · rintro ⟨_, _, u, hu, h⟩
    have e : ∀ u : StationId, u ≠ 0 → ((asking true).entry u).role ≠ .door 0 := by decide +kernel
    exact e u hu h

/-- A commit in flight. -/
def committing : State := { calm with commit := some Settings.factory, commitFailed := true }

theorem test_commit : (after .commitSettings (asking true)).commit = some Settings.factory
    ∧ answerTo .commitSettings asking = some ⟨.privilege, []⟩
    ∧ answerTo .commitSettings { asking true with commit := some Settings.factory } = some ⟨.busy, []⟩
    ∧ (after (.commitCompletion true) committing).image = some Settings.factory
    ∧ (after (.commitCompletion true) committing).commitFailed = false
    ∧ (after (.commitCompletion false) committing).image = none
    ∧ (after (.commitCompletion false) committing).commitFailed = true := by decide +kernel

theorem test_poll : ((after (.poll 3) calm).loops.get 3) = ⟨1, some ⟨0, 0, .none⟩⟩
    ∧ ((after (.poll 3) { calm with loops := Table.replicate 4 ⟨15, none⟩ }).loops.get 3).nextSlot = 0
    ∧ ((after (.poll 0) (handed 0 card calm)).loops.get 0).lastPoll = some ⟨0, 0, .hold⟩
    ∧ ((after (.poll 3) (low calm)).loops.get 3) = ⟨0, none⟩
    ∧ calm.stationOutput (address 3 0) = 0 := by decide +kernel

theorem test_missed_answer : calm.supervised 3 = true ∧ ((after (.missedAnswer 3 .late) calm).station 3).missed = 1
    ∧ ((after (.missedAnswer 0 .late) (calm.setStation 0 { calm.station 0 with missed := 2 })).station 0).presence = .lost
    ∧ ((after (.missedAnswer 0 .late) (calm.setStation 0 { calm.station 0 with missed := 2 })).door 0).state
      = .fault .stationLost
    ∧ ((after (.missedAnswer 0 .late) (calm.setStation 0 { calm.station 0 with missed := 2 })).alarm 0).map Alarm.key
      = some ⟨.stationLost, some 0, some 0, none, some 0⟩
    ∧ codeListed (calm.entry 3).role 1 = false ∧ ((after (.goodAnswer 3 ⟨1, none⟩) calm).station 3).missed = 1 := by
  decide +kernel

/-- Station 0 with a presentation, one miss before it is lost, its door serving an entry. -/
def failing (h : Handshake) (st : DoorState) : State :=
  (serving st entryOf4 (withHolder .admitted calm)).setStation 0 { calm.station 0 with missed := 2, handshake := h }

/-- A station lost with a presentation handed drops it and keeps one decided; its door's grant ends with the ADMITTED record,
or, from CLOSED_WAIT, completes its passage. -/
theorem test_lost_station : ((after (.missedAnswer 0 .late) (failing (.handed card) .released)).station 0).handshake = .idle
    ∧ ((after (.missedAnswer 0 .late) (failing (.answering .grant true) .released)).station 0).handshake
      = .answering .grant true
    ∧ (after (.missedAnswer 0 .late) (failing .idle .released)).occupant 4 = none
    ∧ ((after (.missedAnswer 0 .late) (failing .idle .closedWait)).occupant 4).map Occupant.phase = some .vestibule
    ∧ ((after (.missedAnswer 0 .late) (failing .idle .closedWait)).door 0).passages = 1 := by decide +kernel

theorem test_double_look : codeListed (calm.entry 0).role 2 = true
    ∧ ((after (.goodAnswer 0 ⟨2, none⟩) calm).station 0).candidate = some 2
    ∧ ((after (.goodAnswer 0 ⟨2, none⟩) State.reset).station 0).presence = .unseen
    ∧ ((after (.goodAnswer 0 ⟨2, none⟩) (after (.goodAnswer 0 ⟨2, none⟩) State.reset)).station 0).presence = .present
    ∧ ((after (.goodAnswer 0 ⟨2, none⟩) (after (.goodAnswer 0 ⟨2, none⟩) State.reset)).door 0).state = .secured := by
  decide +kernel

/-- The handshake step and the notes of station 0 after an answer that repeats its inputs. -/
def handshakeAfter (h : Handshake) (n : HandshakeNotes) (p : Option Presentation) : Handshake × HandshakeNotes :=
  let t := after (.goodAnswer 0 ⟨2, p⟩) ((calm.setStation 0 { calm.station 0 with handshake := h }).setNote 0 n)
  ((t.station 0).handshake, t.note 0)

theorem test_repeats : calm.Repeats 0 2 := ⟨⟨rfl, rfl, rfl⟩, by decide +kernel, by decide +kernel, rfl, rfl⟩

/-- Each step of the handshake: handed, waiting behind another, repeated, replaced, the first and the second blank, the ACK
sent or not, and a card at a zone station. -/
theorem test_handshake : handshakeAfter .idle ⟨false, false⟩ (some card) = (.handed card, ⟨false, false⟩)
    ∧ ((after (.goodAnswer 0 ⟨2, some card⟩) (handed 1 card calm)).station 0).handshake = .waiting card
    ∧ handshakeAfter (.handed card) ⟨true, false⟩ (some card) = (.handed card, ⟨false, false⟩)
    ∧ handshakeAfter (.handed card) ⟨true, false⟩ (some { card with mark := false })
      = (.waiting { card with mark := false }, ⟨false, false⟩)
    ∧ handshakeAfter (.waiting card) ⟨false, false⟩ none = (.waiting card, ⟨true, false⟩)
    ∧ handshakeAfter (.handed card) ⟨true, false⟩ none = (.idle, ⟨false, false⟩)
    ∧ handshakeAfter (.answering .grant true) ⟨false, false⟩ (some card) = (.answering .grant true, ⟨false, false⟩)
    ∧ handshakeAfter (.answering .grant true) ⟨false, true⟩ none = (.idle, ⟨false, false⟩)
    ∧ handshakeAfter (.answering .grant true) ⟨false, true⟩ (some card) = (.handed card, ⟨false, false⟩)
    ∧ (calm.entry 2).role = .zone 0 ∧ ((after (.goodAnswer 2 ⟨2, some card⟩) calm).station 2).handshake = .idle
    ∧ (State.reset.station 0).presence ≠ .present ∧ (State.reset.station 0).candidate ≠ some 2 := by decide +kernel

/-- The reset input during a commit, and the way back: the image fails its check and the factory defaults are loaded. -/
theorem test_hold_and_load : (after .resetInput committing).power = .held true false
    ∧ (after .resetInput committing).lines = ⟨false, false, false⟩ ∧ (after .resetInput committing).image = none
    ∧ (after .supplyBelowRetention calm).power = .held false true
    ∧ (after .resetInput (low calm)).power = .held true true
    ∧ (after .resetInput { calm with power := .held false true }).power = .held true true
    ∧ (after .supplyBelowRetention { calm with power := .held true false }).power = .held true true
    ∧ (after .resetInput { calm with power := .loading, supply := (low calm).supply }).power = .held true false
    ∧ (after .supplyBelowRetention { calm with power := .loading }).power = .held false true
    ∧ (after (.powerOn .resetRelease) (after .resetInput calm)).power = .loading
    ∧ (after (.powerOn .supplyRise) (after .resetInput calm)).power = .held true false
    ∧ (after .imageLoad (after (.powerOn .resetRelease) (after .resetInput committing))).settingsDefaulted = true
    ∧ (after .imageLoad { calm with power := .loading, image := some Settings.factory }).settingsDefaulted = false
    ∧ Settings.factory.inRange = true
    ∧ (after (.keyValidated true) (after .resetInput calm)).keyOn = false ∧ (after (.keyValidated true) calm).keyOn = true := by
  decide +kernel

theorem test_supply_low : ((after .supplyLow (handed 0 card calm)).station 0).handshake = .idle
    ∧ (after .supplyLow calm).inLow = true
    ∧ (after .supplyLow (calm.setZone 0 { calm.zone 0 with state := .held })).lines.suppressionActive = true := by
  decide +kernel

theorem test_supply_restart : (low calm).running = true ∧ (low calm).inLow = true
    ∧ (after .supplyRestart (low calm)).uncertain.get 15 = true
    ∧ ((after .supplyRestart (low calm)).station 63).presence = .unseen
    ∧ (after .supplyRestart (low calm)).supplyRestarted = true
    ∧ ((after .supplyRestart (low (counting calm))).zone 0).countdown = some 35000
    ∧ ((after .supplyRestart (low (releasing .main))).zone 0).mainFire = false
    ∧ (after .supplyRestart (low (serving .released entryOf4 (withHolder .admitted calm)))).occupant 4 = none := by
  decide +kernel

/-- Door 0 in HOLD_OPEN, in LOW. -/
def heldLow (st : DoorState) (g : Option Grant) : State :=
  low (atDoor 0 (fun x => { x with baseMode := .holdOpen, effMode := .holdOpen }) (serving st g calm))

/-- The rows of R76: a BOLTING door in HOLD_OPEN bolts on with its timer restarted, a RELEASED one with a grant goes to
BOLTING, and one without stays. -/
theorem test_supply_restart_doors : ((after .supplyRestart (heldLow .bolting none)).door 0).state = .bolting
    ∧ ((after .supplyRestart (heldLow .bolting none)).door 0).stepDeadline = some 8000
    ∧ ((after .supplyRestart (heldLow .released (some ⟨.exit, [4], some 5000⟩))).door 0).state = .bolting
    ∧ ((after .supplyRestart (heldLow .released none)).door 0).state = .released := by decide +kernel

/-! ### What every step keeps -/

/-- A quiet part meets every property that the steps keep, beside reset. -/
theorem test_invariants_met : ModesComputed calm ∧ ZonesSound calm ∧ HoldReasonsCurrent calm ∧ RaisesTaken calm
    ∧ RosterSound calm := by
  refine ⟨calm_modes, fun z => ?_, fun z h => ?_, rfl, ?_⟩
  · have h : calm.zone z = Zone.atPowerOn := by simp [calm, State.reset, State.powerOn, State.zone]
    rw [h]
    constructor <;> simp [Zone.atPowerOn, HoldReasons.empty, Zone.fire]
  · have e : calm.zone z = Zone.atPowerOn := by simp [calm, State.reset, State.powerOn, State.zone]
    rw [e] at h
    cases h
  · constructor <;> simp [calm, State.reset, State.powerOn, State.permit, State.occupant, State.list, State.pair,
      Settings.factory, State.zoneSettings]

/-- Changes that no field of the record itself shows are marked: the CHIME request, an address that leaves the poll cycle, and
CLOCK_INVALID. -/
theorem test_marks_of_changes : (watchAt .one).chimeRequest 0 = false
    ∧ (after (.watchDeadline 4) (watchAt .one)).chimeRequest 0 = true
    ∧ (after (.watchDeadline 4) (watchAt .one)).changes.zones.get 0 = true
    ∧ inCycle calm.settings.stations 63 = true
    ∧ inCycle (after (.writeSetting 60 0x100) (asking true)).settings.stations 63 = false
    ∧ (after (.writeSetting 60 0x100) (asking true)).changes.stations.get 63 = true
    ∧ (after .minuteBoundary (clockAt 16777215 60 calm)).changes.status = true := by decide +kernel

/-- The countdown end at the front of the queue releases from PREDISCHARGE. -/
theorem test_release_step : (counting calm).zone 0 ≠ (after (.countdownEnd 0) (counting calm)).zone 0
    ∧ ({ counting calm with pending := [.countdownEnd 0] } : State).pending = [.countdownEnd 0]
    ∧ ((counting calm).zone 0).state ≠ .releasing := by decide +kernel

end Sys2Proof.Tests
end

/-! PROOFS. The permits, the records, the lists and the pending pairs name each other after every step (R2, R4, R21, R35):
what each operation that writes them does to `RosterSound`, and that the others leave it alone. -/

namespace Sys2Proof.Machine

/-! ### What the writes of the roster read -/

theorem permit_setPermit (s : State) (p q : PermitIx) (x : Option Permit) :
    (s.setPermit p x).permit q = if p = q then x else s.permit q := Table.get_set _ _ _ _

theorem occupant_setOccupant (s : State) (o v : Slot) (x : Option Occupant) :
    (s.setOccupant o x).occupant v = if o = v then x else s.occupant v := Table.get_set _ _ _ _

theorem list_setList (s : State) (r u : Room) (l : List Slot) :
    (s.setList r l).list u = if r = u then l else s.list u := Table.get_set _ _ _ _

theorem pair_setPair (s : State) (r u : Room) (h : Option PendingPair) :
    (s.setPair r h).pair u = if r = u then h else s.pair u := Table.get_set _ _ _ _

theorem pair_dropPairsOf (s : State) (p : PermitIx) (r : Room) :
    (s.dropPairsOf p).pair r = (s.pair r).filter fun q => decide (q.permit ≠ p) := Table.get_map _ _ _

/-- What the laws of the roster read of a record: its strongroom and its permit. -/
def Occupant.naming (x : Occupant) : Room × PermitIx := (x.room, x.permit)

/-- A record stands with its strongroom and permit wherever what the laws read of it does. -/
theorem occupant_of_naming {a b : Option Occupant} {x : Occupant} (h : a.map Occupant.naming = b.map Occupant.naming)
    (hx : b = some x) : ∃ y, a = some y ∧ y.room = x.room ∧ y.permit = x.permit := by
  rw [hx] at h
  obtain ⟨y, hy, e⟩ := Option.map_eq_some_iff.mp h
  exact ⟨y, hy, congrArg Prod.fst e, congrArg Prod.snd e⟩

theorem naming_of_unwatched {x y : Option Occupant} (h : x.map Occupant.unwatched = y.map Occupant.unwatched) :
    x.map Occupant.naming = y.map Occupant.naming := by
  have e : ∀ z : Option Occupant, z.map Occupant.naming = (z.map Occupant.unwatched).map Occupant.naming := fun z => by
    cases z <;> rfl
  rw [e x, h, ← e y]

/-! ### Steps that only ease the laws -/

/-- Between the two states the roster's laws can only become easier: records keep their strongroom and permit, lists stay,
a permit keeps its credential and its link and becomes RETIRING only if it is linked, no linked permit and no permit of a
pending pair that stays is removed, pending pairs are only dropped, and no limit falls below a count. -/
structure State.Eases (s t : State) : Prop where
  records : ∀ o, (t.occupant o).map Occupant.naming = (s.occupant o).map Occupant.naming
  lists : t.lists = s.lists
  permits : ∀ p m, t.permit p = some m → ∃ k, s.permit p = some k ∧ m.credential = k.credential
    ∧ m.occupant = k.occupant ∧ (m.state = .retiring → k.state = .retiring ∨ k.occupant.isSome = true)
  present : ∀ p k, s.permit p = some k → k.occupant.isSome = true ∨ (∃ r h, t.pair r = some h ∧ h.permit = p) →
    (t.permit p).isSome = true
  pairs : ∀ r h, t.pair r = some h → s.pair r = some h
  limits : ∀ r, (s.list r).length ≤ (s.zoneSettings r).occupancyLimit →
    (s.list r).length ≤ (t.zoneSettings r).occupancyLimit

/-- The second state is sound if the first is. -/
def RosterKept (s t : State) : Prop := RosterSound s → RosterSound t

theorem RosterKept.refl (s : State) : RosterKept s s := id

theorem RosterKept.trans {s t u : State} (h : RosterKept s t) (k : RosterKept t u) : RosterKept s u := k ∘ h

theorem RosterKept.foldl {α : Type} {f : State → α → State} (h : ∀ s a, RosterKept s (f s a)) (l : List α) (s : State) :
    RosterKept s (l.foldl f s) := by
  induction l generalizing s with
  | nil => exact .refl s
  | cons a l ih => exact (h s a).trans (ih (f s a))

theorem State.Eases.kept {s t : State} (h : s.Eases t) : RosterKept s t := by
  intro k
  have back : ∀ {o y}, t.occupant o = some y → ∃ x, s.occupant o = some x ∧ x.room = y.room ∧ x.permit = y.permit :=
    fun hy => occupant_of_naming (h.records _).symm hy
  have list : ∀ r, t.list r = s.list r := fun r => congrArg (Table.get · r) h.lists
  -- a permit that must still be present is the one it was, in credential and link
  have permit : ∀ {p m}, s.permit p = some m →
      m.occupant.isSome = true ∨ (∃ r h, t.pair r = some h ∧ h.permit = p) →
      ∃ n, t.permit p = some n ∧ n.occupant = m.occupant := by
    intro p m hm hw
    obtain ⟨n, hn⟩ := Option.isSome_iff_exists.mp (h.present p m hm hw)
    obtain ⟨k, hk, _, ho, _⟩ := h.permits p n hn
    cases hm.symm.trans hk
    exact ⟨n, hn, ho⟩
  constructor
  case unique =>
    intro p q m n hm hn e
    obtain ⟨m', hm', em, _⟩ := h.permits p m hm
    obtain ⟨n', hn', en, _⟩ := h.permits q n hn
    exact k.unique p q m' n' hm' hn' (by rw [← em, ← en, e])
  case numbered =>
    intro p m hm
    obtain ⟨m', hm', em, _⟩ := h.permits p m hm
    rw [em]
    exact k.numbered p m' hm'
  case linked =>
    intro o y hy
    obtain ⟨x, hx, _, ep⟩ := back hy
    obtain ⟨m, hm, ho⟩ := k.linked o x hx
    obtain ⟨n, hn, e⟩ := permit hm (.inl (by rw [ho]; rfl))
    exact ⟨n, ep ▸ hn, e.trans ho⟩
  case named =>
    intro p m o hm ho
    obtain ⟨m', hm', _, eo, _⟩ := h.permits p m hm
    obtain ⟨x, hx, ex⟩ := k.named p m' o hm' (eo ▸ ho)
    obtain ⟨y, hy, _, ey⟩ := occupant_of_naming (h.records o) hx
    exact ⟨y, hy, ey.trans ex⟩
  case retiring =>
    intro p m hm hs
    obtain ⟨m', hm', _, eo, er⟩ := h.permits p m hm
    rw [eo]
    exact (er hs).elim (k.retiring p m' hm') id
  case held =>
    intro r q hq
    obtain ⟨m, hm, ho⟩ := k.held r q (h.pairs r q hq)
    obtain ⟨n, hn, e⟩ := permit hm (.inr ⟨r, q, hq, rfl⟩)
    exact ⟨n, hn, e.trans ho⟩
  case apart => exact fun r u q v hq hv => k.apart r u q v (h.pairs r q hq) (h.pairs u v hv)
  case listed =>
    intro r o
    rw [list r, k.listed r o]
    constructor
    · rintro ⟨x, hx, e⟩
      obtain ⟨y, hy, er, _⟩ := occupant_of_naming (h.records o) hx
      exact ⟨y, hy, er.trans e⟩
    · rintro ⟨y, hy, e⟩
      obtain ⟨x, hx, er, _⟩ := back hy
      exact ⟨x, hx, er.trans e⟩
  case once => exact fun r => list r ▸ k.once r
  case limit => exact fun r => list r ▸ h.limits r (k.limit r)

/-- A state that agrees in the four tables and the limits keeps the laws. -/
theorem RosterKept.of_fields {s t : State} (hp : t.permits = s.permits) (ho : t.occupants = s.occupants)
    (hl : t.lists = s.lists) (hq : t.pairs = s.pairs) (hz : t.settings.zones = s.settings.zones) : RosterKept s t := by
  have permit : t.permit = s.permit := by
    unfold State.permit
    rw [hp]
  refine State.Eases.kept ⟨fun o => ?_, hl, fun p m hm => ⟨m, permit ▸ hm, rfl, rfl, .inl⟩, fun p k hk _ => ?_, ?_, ?_⟩
  · unfold State.occupant
    rw [ho]
  · rw [permit, hk]
    rfl
  · unfold State.pair
    rw [hq]
    exact fun _ _ h => h
  · unfold State.zoneSettings
    rw [hz]
    exact fun _ h => h

/-- The parts that the roster's laws read. -/
def rosterKeys : List Part := [.permits, .records, .lists, .pairs, .settings]

/-- A change of other parts keeps the laws. -/
theorem RosterKept.of_only {ps : List Part} {s t : State} (h : OnlyChanges ps s t)
    (hs : (ps.all fun p => decide (p ∉ rosterKeys)) = true) : RosterKept s t := by
  have same : ∀ p ∈ rosterKeys, p.same s t := fun p hp =>
    h p fun hm => of_decide_eq_true (List.all_eq_true.mp hs p hm) hp
  have hp : t.permit = s.permit := by
    funext p
    exact congrArg (Table.get · p) (same .permits (by decide))
  have hq : t.pair = s.pair := by
    funext r
    exact congrArg (Table.get · r) (same .pairs (by decide))
  have hc : t.zoneSettings = s.zoneSettings := by
    funext r
    exact congrArg (fun c : Settings => c.zones.get r) (same .settings (by decide))
  refine State.Eases.kept ⟨fun o => naming_of_unwatched (same .records (by decide) o), same .lists (by decide),
    ?_, ?_, ?_, ?_⟩
  · exact fun p m hm => ⟨m, hp ▸ hm, rfl, rfl, .inl⟩
  · intro p k hk _
    rw [hp, hk]
    rfl
  · exact fun r h hh => hq ▸ hh
  · exact fun r hr => hc ▸ hr

/-- A record rewritten in its strongroom and under its permit. -/
theorem setOccupant_kept {s : State} {o : Slot} {x y : Occupant} (hx : s.occupant o = some x)
    (hy : y.naming = x.naming) : RosterKept s (s.setOccupant o (some y)) := by
  refine State.Eases.kept ⟨fun v => ?_, rfl, ?_, ?_, ?_, ?_⟩
  · rw [occupant_setOccupant]
    split
    · next e => rw [← e, hx, Option.map_some, Option.map_some, hy]
    · rfl
  · exact fun p m hm => ⟨m, hm, rfl, rfl, .inl⟩
  · intro p k hk _
    exact Option.isSome_iff_exists.mpr ⟨k, hk⟩
  · exact fun _ _ h => h
  · exact fun _ h => h

/-- A permit rewritten under its credential and with its link; it becomes RETIRING only if it is linked. -/
theorem setPermit_kept {s : State} {p : PermitIx} {x y : Permit} (hx : s.permit p = some x)
    (hc : y.credential = x.credential) (ho : y.occupant = x.occupant)
    (hr : y.state = .retiring → x.state = .retiring ∨ x.occupant.isSome = true) :
    RosterKept s (s.setPermit p (some y)) := by
  refine State.Eases.kept ⟨fun _ => rfl, rfl, ?_, ?_, fun _ _ h => h, fun _ h => h⟩
  · intro q m hm
    rw [permit_setPermit] at hm
    split at hm
    · next e =>
      cases e
      cases hm
      exact ⟨x, hx, hc, ho, hr⟩
    · exact ⟨m, hm, rfl, rfl, .inl⟩
  · intro q k hk _
    rw [permit_setPermit]
    split
    · rfl
    · rw [hk]
      rfl

/-- A pending pair dropped. -/
theorem setPair_none_kept (s : State) (r : Room) : RosterKept s (s.setPair r none) := by
  refine State.Eases.kept ⟨fun _ => rfl, rfl, ?_, ?_, ?_, fun _ h => h⟩
  · exact fun p m hm => ⟨m, hm, rfl, rfl, .inl⟩
  · intro p k hk _
    exact Option.isSome_iff_exists.mpr ⟨k, hk⟩
  · intro u h hh
    rw [pair_setPair] at hh
    split at hh
    · cases hh
    · exact hh

/-- An unlinked permit removed, with its pending pairs (R5). -/
theorem removePermit_kept {s : State} {p : PermitIx} (hp : ∀ m, s.permit p = some m → m.occupant = none) :
    RosterKept s (s.removePermit p) := by
  have permit : ∀ q, (s.removePermit p).permit q = if p = q then none else s.permit q :=
    fun q => permit_setPermit s p q none
  have pair : ∀ r, (s.removePermit p).pair r = (s.pair r).filter fun q => decide (q.permit ≠ p) := pair_dropPairsOf s p
  refine State.Eases.kept ⟨fun _ => rfl, rfl, ?_, ?_, ?_, fun _ h => h⟩
  · intro q m hm
    rw [permit] at hm
    split at hm
    · cases hm
    · exact ⟨m, hm, rfl, rfl, .inl⟩
  · intro q k hk hw
    have hne : p ≠ q := by
      rintro rfl
      rcases hw with hl | ⟨r, h, hh, he⟩
      · rw [hp k hk] at hl
        cases hl
      · rw [pair] at hh
        exact of_decide_eq_true (Option.filter_eq_some_iff.mp hh).2 he
    rw [permit, if_neg hne, hk]
    rfl
  · intro r h hh
    rw [pair] at hh
    exact (Option.filter_eq_some_iff.mp hh).1

end Sys2Proof.Machine

/-! PROOFS. A record leaves the roster (R23) and a record is created (R33): what each reads afterwards, and that the
roster's laws stay. -/

namespace Sys2Proof.Machine

/-! ### A record leaves the roster (R23) -/

theorem unlink_occupants (s : State) (p : PermitIx) : (s.unlink p).occupants = s.occupants := by
  unfold State.unlink
  split
  · rfl
  · split <;> rfl

/-- The link of a present permit cleared: a RETIRING one is removed (R4). -/
theorem unlink_permit {s : State} {p : PermitIx} {m : Permit} (hm : s.permit p = some m) (q : PermitIx) :
    (s.unlink p).permit q
      = if p = q then (if m.state = .retiring then none else some { m with occupant := none }) else s.permit q := by
  unfold State.unlink
  rw [hm]
  dsimp only
  split
  · exact permit_setPermit s p q none
  · exact permit_setPermit s p q _

theorem unlink_pair (s : State) (p : PermitIx) (r : Room) (h : PendingPair) (hh : (s.unlink p).pair r = some h) :
    s.pair r = some h := by
  unfold State.unlink at hh
  split at hh
  · exact hh
  · split at hh
    · exact (Option.filter_eq_some_iff.mp ((pair_dropPairsOf _ p r).symm.trans hh)).1
    · exact hh

/-- The partner link cleared is in a record that stays in its strongroom and under its permit. -/
theorem clearPartner_naming (s : State) (q : Option Slot) (v : Slot) :
    ((s.clearPartner q).occupant v).map Occupant.naming = (s.occupant v).map Occupant.naming := by
  unfold State.clearPartner
  split
  · rfl
  · next q =>
    split
    · rfl
    · next x hx =>
      rw [occupant_setOccupant]
      split
      · next e => rw [← e, hx]; rfl
      · rfl

/-- The slot of the record that leaves is free afterwards. -/
theorem clearPartner_free {s : State} {o : Slot} (q : Option Slot) (h : s.occupant o = none) :
    (s.clearPartner q).occupant o = none :=
  Option.map_eq_none_iff.mp ((clearPartner_naming s q o).trans (by rw [h]; rfl))

section
variable {s : State} {o : Slot} {x : Occupant} (hx : s.occupant o = some x)
include hx

/-- The records after one has left: its slot is free, the others keep their strongroom and permit. -/
theorem leaveRoster_naming (v : Slot) : ((s.leaveRoster o).occupant v).map Occupant.naming
    = if o = v then none else (s.occupant v).map Occupant.naming := by
  have e : (s.leaveRoster o).occupant v
      = ((((s.setOccupant o none).setList x.room (strike o (s.list x.room))).unlink x.permit).clearPartner
        x.partner).occupant v := by
    unfold State.leaveRoster
    rw [hx]
    rfl
  have u : ∀ t : State, (t.unlink x.permit).occupant v = t.occupant v := fun t =>
    congrArg (Table.get · v) (unlink_occupants t x.permit)
  rw [e, clearPartner_naming, u]
  refine (congrArg _ (occupant_setOccupant s o v none)).trans ?_
  split <;> rfl

theorem leaveRoster_occupant_self : (s.leaveRoster o).occupant o = none :=
  Option.map_eq_none_iff.mp ((leaveRoster_naming hx o).trans (if_pos rfl))

/-- The slot is struck from the list of its strongroom. -/
theorem leaveRoster_list (r : Room) : (s.leaveRoster o).list r
    = if x.room = r then strike o (s.list x.room) else s.list r := by
  have e : (s.leaveRoster o).list r = ((s.setOccupant o none).setList x.room (strike o (s.list x.room))).list r := by
    have k : OnlyChanges [.records, .watches, .permits, .pairs, .alarms, .doors]
        ((s.setOccupant o none).setList x.room (strike o (s.list x.room))) (s.leaveRoster o) := by
      unfold State.leaveRoster
      rw [hx]
      exact ((((unlink_only _ _).widen rfl).trans ((clearPartner_only _ _).widen rfl)).trans
        ((strikeAlarms_only _ o).widen rfl)).trans ((strikeGrants_only _ o).widen rfl)
    exact congrArg (Table.get · r) (k .lists (by decide))
  exact e.trans (list_setList _ _ _ _)

/-- After the unlinking, nothing that the leaving does touches a permit or a pending pair. -/
theorem leaveRoster_unlinked : OnlyChanges [.records, .watches, .alarms, .doors]
    (((s.setOccupant o none).setList x.room (strike o (s.list x.room))).unlink x.permit) (s.leaveRoster o) := by
  unfold State.leaveRoster
  rw [hx]
  exact (((clearPartner_only _ _).widen rfl).trans ((strikeAlarms_only _ o).widen rfl)).trans
    ((strikeGrants_only _ o).widen rfl)

/-- The permit of the record that leaves is unlinked, or removed if it is RETIRING (R4). -/
theorem leaveRoster_permit {m : Permit} (hm : s.permit x.permit = some m) (q : PermitIx) :
    (s.leaveRoster o).permit q = if x.permit = q then
        (if m.state = .retiring then none else some { m with occupant := none }) else s.permit q :=
  (congrArg (Table.get · q) (leaveRoster_unlinked hx .permits (by decide))).trans
    (unlink_permit (s := (s.setOccupant o none).setList x.room (strike o (s.list x.room))) hm q)

theorem leaveRoster_pair {r : Room} {h : PendingPair} (hh : (s.leaveRoster o).pair r = some h) : s.pair r = some h :=
  unlink_pair ((s.setOccupant o none).setList x.room (strike o (s.list x.room))) x.permit r h
    ((congrArg (Table.get · r) (leaveRoster_unlinked hx .pairs (by decide))).symm.trans hh)

end

theorem strike_eq_of_not_mem {o : Slot} {l : List Slot} (h : o ∉ l) : strike o l = l :=
  List.filter_eq_self.mpr fun _ hv => decide_eq_true fun e => h (e ▸ hv)

theorem mem_strike {o v : Slot} {l : List Slot} : v ∈ strike o l ↔ v ∈ l ∧ v ≠ o := by
  simp [strike]

/-- Where the lists are sound, the leaving strikes the slot from every list alike. -/
theorem leaveRoster_list_strike {s : State} {o : Slot} {x : Occupant} (k : RosterSound s) (hx : s.occupant o = some x)
    (r : Room) : (s.leaveRoster o).list r = strike o (s.list r) := by
  rw [leaveRoster_list hx]
  split
  · next e => rw [e]
  · next e =>
    refine (strike_eq_of_not_mem fun hm => ?_).symm
    obtain ⟨y, hy, hr⟩ := (k.listed r o).mp hm
    cases hx.symm.trans hy
    exact e hr

/-- The leaving of a record keeps the laws (R4, R23). -/
theorem leaveRoster_kept (s : State) (o : Slot) : RosterKept s (s.leaveRoster o) := by
  cases hx : s.occupant o with
  | none =>
    have e : s.leaveRoster o = s := by simp only [State.leaveRoster, hx]
    rw [e]
    exact .refl s
  | some x =>
    intro k
    obtain ⟨m, hm, hl⟩ := k.linked o x hx
    have permit := leaveRoster_permit hx hm
    have list := leaveRoster_list_strike k hx
    have limits : (s.leaveRoster o).zoneSettings = s.zoneSettings := by
      funext r
      exact congrArg (fun c : Settings => c.zones.get r) (leaveRoster_only s o .settings (by decide))
    -- a record that is left is one that stood, in another slot
    have back : ∀ {v y}, (s.leaveRoster o).occupant v = some y →
        v ≠ o ∧ ∃ z, s.occupant v = some z ∧ z.room = y.room ∧ z.permit = y.permit := by
      intro v y hy
      have e := leaveRoster_naming hx v
      rw [hy] at e
      split at e
      · cases e
      · next hne => exact ⟨fun h => hne h.symm, occupant_of_naming e.symm rfl⟩
    have forth : ∀ {v z}, v ≠ o → s.occupant v = some z →
        ∃ y, (s.leaveRoster o).occupant v = some y ∧ y.room = z.room ∧ y.permit = z.permit := by
      intro v z hne hz
      have e := leaveRoster_naming hx v
      rw [if_neg fun h => hne h.symm] at e
      exact occupant_of_naming e hz
    -- a permit that is left is one that stood, the leaving one without its link
    have origin : ∀ {q n}, (s.leaveRoster o).permit q = some n → ∃ n', s.permit q = some n'
        ∧ n.credential = n'.credential
        ∧ ((n = n' ∧ q ≠ x.permit) ∨ (q = x.permit ∧ n.occupant = none ∧ n.state ≠ .retiring)) := by
      intro q n hn
      rw [permit] at hn
      split at hn
      · next e =>
        split at hn
        · cases hn
        · next hs =>
          cases hn
          exact ⟨m, e ▸ hm, rfl, .inr ⟨e.symm, rfl, hs⟩⟩
      · next e => exact ⟨n, hn, rfl, .inl ⟨rfl, fun h => e h.symm⟩⟩
    have other : ∀ {q}, q ≠ x.permit → (s.leaveRoster o).permit q = s.permit q := fun h => by
      rw [permit, if_neg fun e => h e.symm]
    constructor
    case unique =>
      intro p q a b ha hb e
      obtain ⟨a', ha', ea, _⟩ := origin ha
      obtain ⟨b', hb', eb, _⟩ := origin hb
      exact k.unique p q a' b' ha' hb' (by rw [← ea, ← eb, e])
    case numbered =>
      intro p a ha
      obtain ⟨a', ha', ea, _⟩ := origin ha
      rw [ea]
      exact k.numbered p a' ha'
    case linked =>
      intro v y hy
      obtain ⟨hne, z, hz, _, ep⟩ := back hy
      obtain ⟨n, hn, hv⟩ := k.linked v z hz
      have hp : y.permit ≠ x.permit := by
        intro e
        rw [ep, e, hm] at hn
        cases hn
        cases hl.symm.trans hv
        exact hne rfl
      exact ⟨n, (other hp).trans (ep ▸ hn), hv⟩
    case named =>
      intro p n v hn hv
      obtain ⟨n', hn', _, h⟩ := origin hn
      rcases h with ⟨rfl, hp⟩ | ⟨_, h0, _⟩
      · obtain ⟨z, hz, ez⟩ := k.named p n v hn' hv
        have hne : v ≠ o := by
          rintro rfl
          cases hx.symm.trans hz
          exact hp ez.symm
        obtain ⟨y, hy, _, ey⟩ := forth hne hz
        exact ⟨y, hy, ey.trans ez⟩
      · cases h0.symm.trans hv
    case retiring =>
      intro p n hn hs
      obtain ⟨n', hn', _, h⟩ := origin hn
      rcases h with ⟨rfl, _⟩ | ⟨_, _, h0⟩
      · exact k.retiring p n hn' hs
      · exact absurd hs h0
    case held =>
      intro r h hh
      obtain ⟨n, hn, hv⟩ := k.held r h (leaveRoster_pair hx hh)
      have hp : h.permit ≠ x.permit := by
        intro e
        rw [e, hm] at hn
        cases hn
        cases hl.symm.trans hv
      exact ⟨n, (other hp).trans hn, hv⟩
    case apart => exact fun r u h v hh hv => k.apart r u h v (leaveRoster_pair hx hh) (leaveRoster_pair hx hv)
    case listed =>
      intro r v
      rw [list, mem_strike, k.listed r v]
      constructor
      · rintro ⟨⟨z, hz, e⟩, hne⟩
        obtain ⟨y, hy, er, _⟩ := forth hne hz
        exact ⟨y, hy, er.trans e⟩
      · rintro ⟨y, hy, e⟩
        obtain ⟨hne, z, hz, er, _⟩ := back hy
        exact ⟨⟨z, hz, er.trans e⟩, hne⟩
    case once => exact fun r => list r ▸ (k.once r).filter _
    case limit =>
      intro r
      rw [list, limits]
      exact Nat.le_trans (List.length_filter_le _ _) (k.limit r)

/-! ### A record is created (R33) -/

/-- A permit linked to a slot keeps its credential. -/
theorem charged_credential (m : Permit) (o : Slot) : (m.charged o).credential = m.credential := by
  unfold Permit.charged
  split <;> rfl

theorem charged_occupant (m : Permit) (o : Slot) : (m.charged o).occupant = some o := by
  unfold Permit.charged
  split <;> rfl

section
variable {s : State} {o : Slot} {r : Room} {p : PermitIx} {m : Permit} (d : Bool) (w : Option Slot)

theorem createRecord_occupant (v : Slot) : (s.createRecord o r p d w).occupant v
    = if o = v then some (s.newOccupant r p d w) else s.occupant v := by
  unfold State.createRecord State.chargePermit
  split <;> exact occupant_setOccupant s o v _

theorem createRecord_list (u : Room) : (s.createRecord o r p d w).list u
    = if r = u then s.list r ++ [o] else s.list u := by
  unfold State.createRecord State.chargePermit
  split <;> exact list_setList _ r u _

theorem createRecord_permit (hm : s.permit p = some m) (q : PermitIx) : (s.createRecord o r p d w).permit q
    = if p = q then some (m.charged o) else s.permit q := by
  unfold State.createRecord State.chargePermit
  have e : ((s.setOccupant o (some (s.newOccupant r p d w))).setList r (s.list r ++ [o])).permit p = some m := hm
  rw [e]
  exact permit_setPermit _ p q _

theorem createRecord_pair (u : Room) : (s.createRecord o r p d w).pair u = s.pair u :=
  congrArg (Table.get · u) (createRecord_only s o r p d w .pairs (by decide))

theorem createRecord_zoneSettings (u : Room) : (s.createRecord o r p d w).zoneSettings u = s.zoneSettings u :=
  congrArg (fun c : Settings => c.zones.get u) (createRecord_only s o r p d w .settings (by decide))

/-- A record created for an unlinked permit that no pending pair names, in a free slot and a strongroom with a place,
keeps the laws (R4, R21). -/
theorem createRecord_kept (ho : s.occupant o = none) (hm : s.permit p = some m) (hl : m.occupant = none)
    (hp : ∀ u h, s.pair u = some h → h.permit ≠ p)
    (hr : (s.list r).length + 1 ≤ (s.zoneSettings r).occupancyLimit) : RosterKept s (s.createRecord o r p d w) := by
  intro k
  have occ := createRecord_occupant (s := s) (o := o) (r := r) (p := p) d w
  have list := createRecord_list (s := s) (o := o) (r := r) (p := p) d w
  have permit := createRecord_permit (o := o) (r := r) d w hm
  have pair := createRecord_pair (s := s) (o := o) (r := r) (p := p) d w
  have fresh : ∀ u, o ∉ s.list u := fun u h => by
    obtain ⟨y, hy, _⟩ := (k.listed u o).mp h
    cases ho.symm.trans hy
  have credential : ∀ {q n}, (s.createRecord o r p d w).permit q = some n →
      ∃ n', s.permit q = some n' ∧ n.credential = n'.credential := by
    intro q n hn
    rw [permit] at hn
    split at hn
    · next e =>
      cases hn
      exact ⟨m, e ▸ hm, charged_credential m o⟩
    · exact ⟨n, hn, rfl⟩
  constructor
  case unique =>
    intro a b x y hx hy e
    obtain ⟨x', hx', ex⟩ := credential hx
    obtain ⟨y', hy', ey⟩ := credential hy
    exact k.unique a b x' y' hx' hy' (by rw [← ex, ← ey, e])
  case numbered =>
    intro a x hx
    obtain ⟨x', hx', ex⟩ := credential hx
    exact ex ▸ k.numbered a x' hx'
  case linked =>
    intro v y hy
    rw [occ] at hy
    split at hy
    · next e =>
      cases hy
      exact ⟨m.charged o, by rw [permit]; exact if_pos rfl, (charged_occupant m o).trans (congrArg some e)⟩
    · obtain ⟨n, hn, hv⟩ := k.linked v y hy
      have hne : p ≠ y.permit := by
        rintro rfl
        cases hm.symm.trans hn
        cases hl.symm.trans hv
      exact ⟨n, by rw [permit, if_neg hne, hn], hv⟩
  case named =>
    intro q n v hn hv
    rw [permit] at hn
    split at hn
    · next e =>
      cases hn
      rw [charged_occupant] at hv
      cases hv
      exact ⟨s.newOccupant r p d w, by rw [occ, if_pos rfl], e⟩
    · obtain ⟨y, hy, e⟩ := k.named q n v hn hv
      have hne : o ≠ v := by
        rintro rfl
        cases ho.symm.trans hy
      exact ⟨y, by rw [occ, if_neg hne, hy], e⟩
  case retiring =>
    intro q n hn hs
    rw [permit] at hn
    split at hn
    · cases hn
      rw [charged_occupant]
      rfl
    · exact k.retiring q n hn hs
  case held =>
    intro u h hh
    rw [pair] at hh
    obtain ⟨n, hn, hv⟩ := k.held u h hh
    exact ⟨n, by rw [permit, if_neg fun e => hp u h hh e.symm, hn], hv⟩
  case apart =>
    intro a b x y hx hy
    rw [pair] at hx hy
    exact k.apart a b x y hx hy
  case listed =>
    intro u v
    rw [list, occ]
    by_cases hv : o = v
    · subst hv
      by_cases hu : r = u
      · subst hu
        simp [State.newOccupant]
      · simp [hu, fresh u, State.newOccupant]
    · rw [if_neg hv, ← k.listed u v]
      by_cases hu : r = u
      · subst hu
        simp [show v ≠ o from fun e => hv e.symm]
      · rw [if_neg hu]
  case once =>
    intro u
    rw [list]
    split
    · refine List.nodup_append.mpr ⟨k.once r, List.nodup_cons.mpr ⟨List.not_mem_nil, List.nodup_nil⟩, ?_⟩
      intro v hv w hw e
      exact fresh r (List.mem_singleton.mp hw ▸ e ▸ hv)
    · exact k.once u
  case limit =>
    intro u
    rw [list, createRecord_zoneSettings]
    split
    · next e =>
      subst e
      simpa using hr
    · exact k.limit u

end

end Sys2Proof.Machine

/-! PROOFS. The operations of the doors, the zones and the loops reach the roster through passages and ended grants only, so
each keeps the roster's laws. -/

namespace Sys2Proof.Machine

/-! ### What passages and ended grants do to records (R43, R44) -/

theorem setPhase_kept (s : State) (o : Slot) (p : Phase) : RosterKept s (s.setPhase o p) := by
  unfold State.setPhase
  split
  · exact .refl s
  · next hx => exact setOccupant_kept hx rfl

theorem movePassed_kept (k : GrantKind) (d : DoorNo) (s : State) (o : Slot) :
    RosterKept s (State.movePassed k d s o) := by
  unfold State.movePassed
  split
  · exact .refl s
  · split
    any_goals exact setPhase_kept s o _
    any_goals exact leaveRoster_kept s o
    exact .refl s

theorem retireAdmitted_kept (s : State) (o : Slot) : RosterKept s (s.retireAdmitted o) := by
  unfold State.retireAdmitted
  split
  · split
    · exact leaveRoster_kept s o
    · exact .refl s
  · exact .refl s

theorem endWithoutPassage_kept (s : State) (g : Grant) : RosterKept s (s.endWithoutPassage g) := by
  unfold State.endWithoutPassage
  split
  any_goals exact .foldl retireAdmitted_kept g.slots s
  all_goals exact .refl s

/-! ### Doors -/

theorem modDoor_kept (s : State) (d : DoorNo) (f : Door → Door) : RosterKept s (s.modDoor d f) :=
  .of_only (modDoor_only s d f) rfl

theorem toBolting_kept (s : State) (d : DoorNo) : RosterKept s (s.toBolting d) := .of_only (toBolting_only s d) rfl

theorem releasePending_kept (s : State) (d : DoorNo) : RosterKept s (s.releasePending d) :=
  .of_only (releasePending_only s d) rfl

theorem toReleasedWith_kept (s : State) (d : DoorNo) (g : Grant) : RosterKept s (s.toReleasedWith d g) :=
  .of_only (toReleasedWith_only s d g) rfl

theorem completePassage_kept (s : State) (d : DoorNo) : RosterKept s (s.completePassage d) := by
  unfold State.completePassage
  split
  · exact .refl s
  · exact (modDoor_kept s d _).trans (.foldl (movePassed_kept _ d) _ _)

theorem endGrant_kept (s : State) (d : DoorNo) : RosterKept s (s.endGrant d) := by
  unfold State.endGrant
  split
  · exact .refl s
  · exact (modDoor_kept s d _).trans (endWithoutPassage_kept _ _)

theorem disposeGrant_kept (s : State) (d : DoorNo) : RosterKept s (s.disposeGrant d) := by
  have passed : RosterKept s (match (s.door d).grant with
      | some g => if g.kind.isEntry then s.completePassage d else s.endGrant d
      | none => s) := by
    split
    · split
      · exact completePassage_kept s d
      · exact endGrant_kept s d
    · exact .refl s
  unfold State.disposeGrant
  split
  any_goals exact passed
  all_goals exact endGrant_kept s d

/-- Entry to FAULT (R59). -/
theorem enterFault_kept (s : State) (d : DoorNo) (c : FaultCause) : RosterKept s (s.enterFault d c) := by
  unfold State.enterFault
  split
  · exact ((disposeGrant_kept s d).trans (modDoor_kept _ d _)).trans (releasePending_kept _ d)
  · exact .refl s

/-- A bolt reading taken: the one reading that reaches the roster is a CONFLICT, by FAULT (R51, R59). -/
theorem takeBolt_kept (s : State) (d : DoorNo) (r : BoltReading) : RosterKept s (s.takeBolt d r) := by
  have h := modDoor_kept s d fun x => { x with bolt := some r }
  unfold State.takeBolt
  dsimp only
  split
  · exact h
  · exact h.trans (enterFault_kept _ d _)
  · split
    · exact h.trans (toReleasedWith_kept _ d _)
    · exact h.trans (.of_only (toReleasedBare_only _ d) rfl)
  · exact h.trans (.of_only (toSecured_only _ d) rfl)
  iterate 2
    split
    · exact h.trans (toBolting_kept _ d)
    · exact h
  iterate 2
    split
    · exact h.trans (.of_only (leaveFault_only _ d _) rfl)
    · exact h
  exact h

theorem mergeExit_kept (s : State) (d : DoorNo) (l : List Slot) : RosterKept s (s.mergeExit d l) := by
  unfold State.mergeExit
  split
  · exact toReleasedWith_kept s d _
  · exact (completePassage_kept s d).trans (toReleasedWith_kept _ d _)
  · exact .refl s

/-- An exit taken (R62). -/
theorem takeExit_kept (s : State) (d : DoorNo) (l : List Slot) : RosterKept s (s.takeExit d l).1 := by
  unfold State.takeExit
  split
  · exact .refl s
  · split
    · exact mergeExit_kept s d l
    · split
      · exact .of_only (beginGrant_only s d _) rfl
      · exact .of_only (pendExit_only s d l) rfl

/-- A change of mode drops a pending pair at most (R37, R65). -/
theorem changeMode_kept (s : State) (d : DoorNo) (m : DoorMode) : RosterKept s (s.changeMode d m) := by
  have cond {b : Prop} [Decidable b] {s t v : State} (h : RosterKept s t) (k : RosterKept t v) :
      RosterKept s (if b then v else t) := by
    split
    · exact h.trans k
    · exact h
  unfold State.changeMode
  dsimp only
  exact cond (cond (cond (cond (cond (modDoor_kept s d _) (setPair_none_kept _ _))
    (.of_only (claimUncertain_only _ _) rfl)) (toBolting_kept _ d)) (releasePending_kept _ d))
    (.of_only (withdrawHoldOpen_only _ d) rfl)

theorem recomputeMode_kept (s : State) (d : DoorNo) : RosterKept s (s.recomputeMode d) := by
  unfold State.recomputeMode
  dsimp only
  split
  · exact .refl s
  · exact changeMode_kept s d _

theorem cancelEntry_kept (s : State) (d : DoorNo) : RosterKept s (s.cancelEntry d) := by
  unfold State.cancelEntry
  split
  · split
    any_goals exact (endGrant_kept s d).trans (toBolting_kept _ d)
    all_goals exact .refl s
  · exact .refl s

theorem travelRunsOut_kept (s : State) (d : DoorNo) : RosterKept s (s.travelRunsOut d) := by
  unfold State.travelRunsOut
  split
  any_goals exact enterFault_kept s d _
  any_goals exact .refl s
  split
  · exact ((modDoor_kept s d _).trans (endGrant_kept _ d)).trans (releasePending_kept _ d)
  · exact .refl s

theorem setModeTo_kept (s : State) (d : DoorNo) (m : BaseMode) : RosterKept s (s.setModeTo d m).2 := by
  unfold State.setModeTo
  split
  · exact .refl s
  · split
    · exact .refl s
    · split
      · exact .refl s
      · exact (modDoor_kept s d _).trans (recomputeMode_kept _ d)

/-- A door at the supply restart (R76). -/
theorem restartDoor_kept (s : State) (d : DoorNo) : RosterKept s (s.restartDoor d) := by
  have rebolts : RosterKept s ((s.endGrant d).boltingRecord d) := (endGrant_kept s d).trans (modDoor_kept _ d _)
  unfold State.restartDoor
  dsimp only
  split
  · split
    · exact rebolts
    · exact modDoor_kept s d _
  · split
    · exact rebolts
    · exact .refl s
  any_goals exact modDoor_kept s d _
  · split
    · exact modDoor_kept s d _
    · exact .refl s
  · exact .refl s

theorem restartDoors_kept (s : State) : RosterKept s s.restartDoors := by
  refine (RosterKept.foldl restartDoor_kept _ s).trans (.foldl (fun t d => ?_) _ _)
  unfold State.restartFollow
  split
  · exact .of_only (enteredBolting_only t d) rfl
  · exact .refl t

/-! ### Zones -/

/-- A zone's change of state (R99). -/
theorem changeZone_kept (s : State) (z : Room) (x : Zone) : RosterKept s (s.changeZone z x) := by
  have modes : RosterKept s ((s.setZone z x).recomputeModes z) :=
    ((RosterKept.of_only (setZone_only s z x) rfl).trans (recomputeMode_kept _ _)).trans (recomputeMode_kept _ _)
  have leaves (t : State) : RosterKept t (t.leaveAdmitting z) :=
    ((cancelEntry_kept t _).trans (cancelEntry_kept _ _)).trans (setPair_none_kept _ z)
  have ends (t : State) : RosterKept t (t.endCause (keyTrapped z)) := .of_only (endCause_only t _) rfl
  unfold State.changeZone
  dsimp only
  split
  · split
    · exact (modes.trans (leaves _)).trans (ends _)
    · exact modes.trans (ends _)
  · split
    · exact modes.trans (leaves _)
    · exact modes

theorem detect_kept (s : State) (z : Room) : RosterKept s (s.detect z) := by
  unfold State.detect
  dsimp only
  split
  · split
    · exact changeZone_kept s z _
    · split
      · exact changeZone_kept s z _
      · exact .refl s
  · split
    · exact changeZone_kept s z _
    · exact .refl s
  all_goals exact .refl s

theorem applyAbort_kept (s : State) (z : Room) : RosterKept s (s.applyAbort z) := by
  unfold State.applyAbort
  dsimp only
  split
  · exact changeZone_kept s z _
  · exact .refl s

theorem applyPressure_kept (s : State) (z : Room) : RosterKept s (s.applyPressure z) := by
  unfold State.applyPressure
  dsimp only
  split
  · exact changeZone_kept s z _
  · exact .refl s

theorem takeZoneInputs_kept (s : State) (z : Room) (i : ZoneInputs) : RosterKept s (s.takeZoneInputs z i) :=
  (((RosterKept.of_only (setZone_only s z _) rfl).trans (detect_kept _ z)).trans (applyAbort_kept _ z)).trans
    (applyPressure_kept _ z)

theorem attempt_kept (s : State) (z : Room) (a : Attempt) : RosterKept s (s.attempt z a) :=
  (changeZone_kept s z _).trans (applyPressure_kept _ z)

theorem countdownEnds_kept (s : State) (z : Room) : RosterKept s (s.countdownEnds z) := by
  unfold State.countdownEnds
  dsimp only
  split
  · exact attempt_kept s z .main
  · exact changeZone_kept s z _

theorem confirmEnds_kept (s : State) (z : Room) : RosterKept s (s.confirmEnds z) := by
  unfold State.confirmEnds
  dsimp only
  split
  · exact attempt_kept s z .reserve
  · exact (changeZone_kept s z _).trans (.of_only (raise_only _ _ none) rfl)

theorem isolateZoneAt_kept (z : Room) (s : State) : RosterKept s (s.isolateZoneAt z).2 := by
  unfold State.isolateZoneAt
  split
  · exact .refl s
  · split
    · exact .of_only (((setZone_only s z _).widen (qs := [.zones, .changes]) rfl).trans ((mark_only _ _).widen rfl)) rfl
    · exact changeZone_kept s z _

theorem restoreZoneAt_kept (z : Room) (s : State) : RosterKept s (s.restoreZoneAt z).2 := by
  unfold State.restoreZoneAt
  split
  · exact .refl s
  · split
    · exact .refl s
    · split
      · exact .refl s
      · exact changeZone_kept s z _

theorem resetTaken_kept (s : State) (z : Room) : RosterKept s (s.resetTaken z) := by
  unfold State.resetTaken
  dsimp only
  split
  · exact (changeZone_kept s z _).trans (.of_only (endCause_only _ _) rfl)
  · exact changeZone_kept s z _

theorem resetZoneAt_kept (z : Room) (s : State) : RosterKept s (s.resetZoneAt z).2 := by
  unfold State.resetZoneAt
  repeat'
    split
    · exact .refl s
  exact resetTaken_kept s z

/-! ### Loops -/

theorem setStation_kept (s : State) (t : StationId) (x : Station) : RosterKept s (s.setStation t x) :=
  .of_only (setStation_only s t x) rfl

theorem setNote_kept (s : State) (t : StationId) (x : HandshakeNotes) : RosterKept s (s.setNote t x) :=
  .of_only (setNote_only s t x) rfl

theorem raise_kept (s : State) (k : AlarmKey) (p : Option PermitIx) : RosterKept s (s.raise k p) :=
  .of_only (raise_only s k p) rfl

theorem endCause_kept (s : State) (k : AlarmKey) : RosterKept s (s.endCause k) := .of_only (endCause_only s k) rfl

theorem toHandshake_kept (s : State) (t : StationId) (h : Handshake) : RosterKept s (s.toHandshake t h) :=
  (setStation_kept s t _).trans (setNote_kept _ t _)

theorem blankAnswer_kept (s : State) (t : StationId) : RosterKept s (s.blankAnswer t) := by
  unfold State.blankAnswer
  split
  · exact toHandshake_kept s t _
  · exact setNote_kept s t _

theorem handshakeAnswer_kept (s : State) (t : StationId) (p : Option Presentation) :
    RosterKept s (s.handshakeAnswer t p) := by
  unfold State.handshakeAnswer
  split
  · exact .refl s
  · exact toHandshake_kept s t _
  · exact toHandshake_kept s t _
  · exact blankAnswer_kept s t
  · split
    · exact setNote_kept s t _
    · exact toHandshake_kept s t _
  · exact blankAnswer_kept s t
  · split
    · exact toHandshake_kept s t _
    · exact .refl s
  · split
    · exact (toHandshake_kept s t _).trans (toHandshake_kept _ t _)
    · exact .refl s

theorem handshakeLost_kept (s : State) (t : StationId) : RosterKept s (s.handshakeLost t) := by
  unfold State.handshakeLost
  split
  any_goals exact toHandshake_kept s t _
  all_goals exact .refl s

theorem ownerLost_kept (s : State) (r : Role) : RosterKept s (s.ownerLost r) := by
  unfold State.ownerLost
  split
  · exact enterFault_kept s _ _
  all_goals exact .refl s

theorem missAnswer_kept (s : State) (t : StationId) : RosterKept s (s.missAnswer t) := by
  unfold State.missAnswer State.becomeLost
  dsimp only
  have missed := (setStation_kept s t
    { s.station t with missed := min ((s.station t).missed + 1) Config.missedMax, candidate := none }).trans
    (setNote_kept _ t { s.note t with blankSeen := false })
  split
  · exact (((missed.trans (setStation_kept _ t _)).trans (ownerLost_kept _ _)).trans (raise_kept _ _ none)).trans
      (handshakeLost_kept _ t)
  · exact missed

theorem panicChange_kept (s : State) (t : StationId) (r : Role) (a : Bool) : RosterKept s (s.panicChange t r a) := by
  unfold State.panicChange
  split
  · exact raise_kept s _ none
  · exact endCause_kept s _

theorem tamperChange_kept (s : State) (t : StationId) (r : Role) (a : Bool) : RosterKept s (s.tamperChange t r a) := by
  unfold State.tamperChange
  split
  · exact raise_kept s _ none
  · exact endCause_kept s _

theorem deliverDoorMotion_kept (s : State) (d : DoorNo) (before : Option DoorInputs) (now : DoorInputs) (b : Bool) :
    RosterKept s (s.deliverDoorMotion d before now b) := by
  have contact : RosterKept s
      (if before.map DoorInputs.contact = some now.contact then s else s.takeContact d now.contact) := by
    split
    · exact .refl s
    · exact .of_only (takeContact_only s d _) rfl
  unfold State.deliverDoorMotion
  dsimp only
  split
  · exact .of_only (recompute_only s d _ _) rfl
  · split
    · exact contact
    · exact contact.trans (takeBolt_kept _ d _)

theorem deliverRte_kept (s : State) (d : DoorNo) (before : Option DoorInputs) (now : DoorInputs) (b : Bool) :
    RosterKept s (s.deliverRte d before now b) := by
  unfold State.deliverRte
  split
  · exact takeExit_kept s d []
  · exact .refl s

theorem deliverDoor_kept (s : State) (t : StationId) (d : DoorNo) (before : Option DoorInputs) (now : DoorInputs)
    (b : Bool) : RosterKept s (s.deliverDoor t d before now b) := by
  have motion := (deliverDoorMotion_kept s d before now b).trans (deliverRte_kept _ d before now b)
  have panic : RosterKept s (if before.map DoorInputs.panic = some now.panic then
      (s.deliverDoorMotion d before now b).deliverRte d before now b
      else ((s.deliverDoorMotion d before now b).deliverRte d before now b).panicChange t (.door d) now.panic) := by
    split
    · exact motion
    · exact motion.trans (panicChange_kept _ t _ _)
  unfold State.deliverDoor
  dsimp only
  split
  · exact panic
  · exact panic.trans (tamperChange_kept _ t _ _)

theorem deliverZone_kept (s : State) (t : StationId) (z : Room) (before : Option ZoneInputs) (now : ZoneInputs)
    (b : Bool) : RosterKept s (s.deliverZone t z before now b) := by
  have inputs : RosterKept s
      (if before.map ZoneInputs.zonePart = some now.zonePart ∧ !b then s else s.takeZoneInputs z now) := by
    split
    · exact .refl s
    · exact takeZoneInputs_kept s z now
  unfold State.deliverZone
  dsimp only
  split
  · exact inputs
  · exact inputs.trans (panicChange_kept _ t _ _)

theorem stationReturned_kept (s : State) (t : StationId) (r : Role) (code : Byte) :
    RosterKept s (s.stationReturned t r code) := by
  unfold State.stationReturned
  split
  · split
    · exact .refl s
    · exact endCause_kept s _
  any_goals exact endCause_kept s _
  exact .refl s

/-- A validated code handed to the owners of its fields (R85, R87). -/
theorem deliver_kept (s : State) (t : StationId) (r : Role) (before : Option Byte) (code : Byte) (b : Bool) :
    RosterKept s (s.deliver t r before code b) := by
  cases r with
  | door d =>
    have handed := deliverDoor_kept s t d (before.map doorInputs) (doorInputs code) b
    unfold State.deliver
    dsimp only
    split
    · exact handed.trans (stationReturned_kept _ t _ code)
    · exact handed
  | zone z =>
    have handed : RosterKept s (match zoneInputs? code with
        | some i => s.deliverZone t z (before.bind zoneInputs?) i b
        | none => s) := by
      split
      · exact deliverZone_kept s t z _ _ b
      · exact .refl s
    unfold State.deliver
    dsimp only
    split
    · exact handed.trans (stationReturned_kept _ t _ code)
    · exact handed
  | muster =>
    unfold State.deliver
    dsimp only
    split
    · exact stationReturned_kept s t _ code
    · exact .refl s
  | unused =>
    unfold State.deliver
    dsimp only
    split
    · exact stationReturned_kept s t _ code
    · exact .refl s

theorem takeAnswer_kept (s : State) (t : StationId) (a : StationAnswer) : RosterKept s (s.takeAnswer t a) := by
  unfold State.takeAnswer
  dsimp only
  split
  · have good := setStation_kept s t ((s.station t).afterGood a.code)
    split
    · exact (good.trans (deliver_kept _ t _ _ _ _)).trans (handshakeAnswer_kept _ t _)
    · exact good.trans (handshakeAnswer_kept _ t _)
  · exact missAnswer_kept s t

theorem sendPoll_kept (s : State) (l : LoopNo) : RosterKept s (s.sendPoll l) := by
  have sent (x : Loop) : RosterKept s { s with loops := s.loops.set l x } := .of_fields rfl rfl rfl rfl rfl
  unfold State.sendPoll
  dsimp only
  split
  · exact (sent _).trans (setNote_kept _ _ _)
  all_goals exact sent _

end Sys2Proof.Machine

/-! PROOFS. The requests on permits, the expiry sweep, the clock and the settings keep the roster's laws. -/

namespace Sys2Proof.Machine

/-! ### Permits (R8 to R17) -/

theorem linkedAt_eq_false {s : State} {p : PermitIx} :
    s.linkedAt p = false ↔ ∀ x, s.permit p = some x → x.occupant = none := by
  simp [State.linkedAt, Option.any_eq_false]

/-- The permit that a lookup finds is present and carries the number (R2). -/
theorem lookup_some {s : State} {c : Credential} {p : PermitIx} (h : s.lookup c = some p) :
    c ≠ 0 ∧ ∃ x, s.permit p = some x ∧ x.credential = c := by
  unfold State.lookup at h
  split at h
  · cases h
  · next hc =>
    obtain ⟨x, hx, e⟩ := (Option.any_eq_true _ _).mp (Table.findIx?_some h)
    exact ⟨hc, x, hx, of_decide_eq_true e⟩

/-- A lookup finds nothing where no permit carries the number, and for 0 (R2). -/
theorem lookup_eq_none {s : State} {c : Credential} :
    s.lookup c = none ↔ c = 0 ∨ ∀ q x, s.permit q = some x → x.credential ≠ c := by
  constructor
  · intro h
    refine (Decidable.em (c = 0)).imp_right fun hc q x hx e => ?_
    rw [State.lookup, if_neg hc] at h
    have hq := Table.findIx?_none h q
    rw [show s.permits.get q = some x from hx, Option.any_some, decide_eq_false_iff_not] at hq
    exact hq e
  · intro h
    refine Option.eq_none_iff_forall_ne_some.mpr fun p hp => ?_
    obtain ⟨hc, x, hx, e⟩ := lookup_some hp
    exact (h.resolve_left hc) p x hx e

/-- A credential is no duplicate at a position where no other position's permit carries it (R8 check 3). -/
theorem duplicates_eq_false {s : State} {p : PermitIx} {c : Credential} (hc : c ≠ 0) :
    s.duplicates p c = false ↔ ∀ q x, q ≠ p → s.permit q = some x → x.credential ≠ c := by
  unfold State.duplicates
  rw [Option.isSome_eq_false_iff, Option.isNone_iff_eq_none, lookup_eq_none, or_iff_right hc]
  constructor
  · intro h q x hq hx
    refine h q x ?_
    rw [permit_setPermit, if_neg fun e => hq e.symm, hx]
  · intro h q x hx
    rw [permit_setPermit] at hx
    split at hx
    · cases hx
    · next e => exact h q x (fun k => e k.symm) hx

/-- The permit that a WRITE PERMIT places carries the credential given, which is not 0; it is not RETIRING and not linked
(R8, R9). -/
theorem permit?_some {f : PermitFields} {x : Permit} (h : f.permit? = some x) :
    x.credential = f.credential ∧ f.credential ≠ 0 ∧ x.state ≠ .retiring ∧ x.occupant = none := by
  unfold PermitFields.permit? at h
  split at h
  · next hr =>
    split at h
    · next c hh st _ _ hs =>
      cases h
      refine ⟨rfl, ?_, ?_, rfl⟩
      · simp only [PermitFields.inRange, Bool.and_eq_true, decide_eq_true_eq] at hr
        exact hr.1.1.1.1
      · rintro rfl
        unfold writtenState? at hs
        split at hs <;> cases hs
    · cases h
  · cases h

/-- A permit placed at a position that holds no linked one, its old pending pairs dropped, keeps the laws if no other
position carries its credential (R2, R8, R9). -/
theorem placePermit_kept {s : State} {p : PermitIx} {x : Permit} (hp : ∀ m, s.permit p = some m → m.occupant = none)
    (hc : x.credential ≠ 0) (hd : ∀ q y, q ≠ p → s.permit q = some y → y.credential ≠ x.credential)
    (hs : x.state ≠ .retiring) (ho : x.occupant = none) :
    RosterKept s ((s.setPermit p (some x)).dropPairsOf p) := by
  intro k
  have permit : ∀ q, ((s.setPermit p (some x)).dropPairsOf p).permit q = if p = q then some x else s.permit q :=
    fun q => permit_setPermit s p q (some x)
  have cases_at : ∀ {q m}, ((s.setPermit p (some x)).dropPairsOf p).permit q = some m →
      (q = p ∧ m = x) ∨ (q ≠ p ∧ s.permit q = some m) := by
    intro q m hm
    rw [permit] at hm
    split at hm
    · next e => exact .inl ⟨e.symm, (Option.some.inj hm).symm⟩
    · next e => exact .inr ⟨fun h => e h.symm, hm⟩
  have pair : ∀ {r h}, ((s.setPermit p (some x)).dropPairsOf p).pair r = some h → s.pair r = some h ∧ h.permit ≠ p := by
    intro r h hh
    have hf := Option.filter_eq_some_iff.mp ((pair_dropPairsOf (s.setPermit p (some x)) p r).symm.trans hh)
    exact ⟨hf.1, of_decide_eq_true hf.2⟩
  have other : ∀ {q m}, s.permit q = some m → q ≠ p →
      ((s.setPermit p (some x)).dropPairsOf p).permit q = some m := fun hm hq => by
    rw [permit, if_neg fun e => hq e.symm, hm]
  constructor
  case unique =>
    intro a b m n hm hn e
    rcases cases_at hm with ⟨ha, hx⟩ | ⟨ha, hm'⟩ <;> rcases cases_at hn with ⟨hb, hy⟩ | ⟨hb, hn'⟩
    · exact ha.trans hb.symm
    · exact absurd (e.symm.trans (congrArg Permit.credential hx)) (hd b n hb hn')
    · exact absurd (e.trans (congrArg Permit.credential hy)) (hd a m ha hm')
    · exact k.unique a b m n hm' hn' e
  case numbered =>
    intro a m hm
    rcases cases_at hm with ⟨_, rfl⟩ | ⟨_, hm⟩
    · exact hc
    · exact k.numbered a m hm
  case linked =>
    intro o y hy
    obtain ⟨m, hm, e⟩ := k.linked o y hy
    refine ⟨m, other hm fun h => ?_, e⟩
    rw [h] at hm
    cases (hp m hm).symm.trans e
  case named =>
    intro a m o hm e
    rcases cases_at hm with ⟨_, rfl⟩ | ⟨_, hm⟩
    · cases ho.symm.trans e
    · exact k.named a m o hm e
  case retiring =>
    intro a m hm e
    rcases cases_at hm with ⟨_, rfl⟩ | ⟨_, hm⟩
    · exact absurd e hs
    · exact k.retiring a m hm e
  case held =>
    intro r h hh
    obtain ⟨hh, hne⟩ := pair hh
    obtain ⟨m, hm, e⟩ := k.held r h hh
    exact ⟨m, other hm hne, e⟩
  case apart => exact fun r u h v hh hv => k.apart r u h v (pair hh).1 (pair hv).1
  case listed => exact k.listed
  case once => exact k.once
  case limit => exact k.limit

/-- A mark changes no record. -/
theorem mark_kept (s : State) (i : Identity) : RosterKept s (s.mark i) := .of_only (mark_only s i) rfl

theorem writePermitAt_kept (f : PermitFields) (p : PermitIx) (s : State) : RosterKept s (s.writePermitAt f p).2 := by
  unfold State.writePermitAt
  split
  · exact .refl s
  · next x hx =>
    split
    · exact .refl s
    · next hl =>
      split
      · exact .refl s
      · next hd =>
        obtain ⟨hc, h0, hs, ho⟩ := permit?_some hx
        rw [← hc] at h0
        exact (placePermit_kept (linkedAt_eq_false.mp (Bool.eq_false_iff.mpr hl)) h0
          ((duplicates_eq_false h0).mp (Bool.eq_false_iff.mpr hd)) hs ho).trans (mark_kept _ _)

/-- An amend neither makes a permit RETIRING nor takes it out of RETIRING (R11). -/
theorem amendState_eq_retiring {a : AmendFields} {old : PermitState} : a.state old = .retiring ↔ old = .retiring := by
  cases old with
  | retiring => exact Iff.rfl
  | active | suspended =>
    unfold AmendFields.state
    dsimp only
    split
    · simp
    · split <;> simp

theorem amendPermitAt_kept (a : AmendFields) (p : PermitIx) (s : State) : RosterKept s (s.amendPermitAt a p).2 := by
  unfold State.amendPermitAt
  split
  · exact .refl s
  · next x hx =>
    split
    · exact .refl s
    · next y hy =>
      split
      · exact .refl s
      · obtain ⟨u, e, q, rfl⟩ : ∃ u e q, y = a.apply x u e q := by
          unfold AmendFields.amended? at hy
          split at hy
          · split at hy
            · exact ⟨_, _, _, (Option.some.inj hy).symm⟩
            · cases hy
          · cases hy
        refine setPermit_kept hx rfl rfl fun h => ?_
        exact .inl (amendState_eq_retiring.mp h)

theorem retireOrRemove_kept {s : State} {p : PermitIx} {x : Permit} (hx : s.permit p = some x) :
    RosterKept s (s.retireOrRemove p x) := by
  unfold State.retireOrRemove
  split
  · next h =>
    refine removePermit_kept fun m hm => ?_
    cases hx.symm.trans hm
    exact Option.isNone_iff_eq_none.mp h
  · next h => exact setPermit_kept hx rfl rfl fun _ => .inr (by simpa [Option.isSome_iff_ne_none] using h)

theorem retirePermitAt_kept (p : PermitIx) (s : State) : RosterKept s (s.retirePermitAt p).2 := by
  unfold State.retirePermitAt
  split
  · exact .refl s
  · next x hx =>
    dsimp only
    split
    · exact .refl s
    · exact retireOrRemove_kept hx

/-- What a sweep makes of a permit: it goes if it is unlinked, and else keeps its credential and its link (R17). -/
theorem sweep_permit (s : State) (p : PermitIx) : s.sweep.permit p = (s.permit p).bind s.swept := Table.get_map _ _ _

theorem sweep_pair (s : State) (r : Room) :
    s.sweep.pair r = (s.pair r).filter fun q => (s.sweep.permit q.permit).isSome := Table.get_map _ _ _

theorem sweep_kept (s : State) : RosterKept s s.sweep := by
  refine State.Eases.kept ⟨fun _ => rfl, rfl, ?_, ?_, ?_, fun _ h => h⟩
  · intro p m hm
    rw [sweep_permit] at hm
    obtain ⟨x, hx, e⟩ := Option.bind_eq_some_iff.mp hm
    refine ⟨x, hx, ?_⟩
    unfold State.swept at e
    split at e
    · split at e
      · cases e
      · next h =>
        cases e
        exact ⟨rfl, rfl, fun _ => .inr (by simpa [Option.isSome_iff_ne_none] using h)⟩
    · cases e
      exact ⟨rfl, rfl, .inl⟩
  · intro p x hx hw
    rcases hw with hl | ⟨r, h, hh, rfl⟩
    · rw [sweep_permit, hx, Option.bind_some]
      unfold State.swept
      split
      · rw [if_neg (by simpa [Option.isSome_iff_ne_none] using hl)]
        rfl
      · rfl
    · rw [sweep_pair] at hh
      exact (Option.filter_eq_some_iff.mp hh).2
  · intro r h hh
    rw [sweep_pair] at hh
    exact (Option.filter_eq_some_iff.mp hh).1

/-! ### The clock and the settings -/

theorem decideHours_kept (s : State) : RosterKept s s.decideHours := .of_fields rfl rfl rfl rfl rfl

theorem minuteBoundary_kept (s : State) (w : WallClock) : RosterKept s (s.minuteBoundary w) := by
  have set (x : Option WallClock) : RosterKept s { s with wall := x } := .of_fields rfl rfl rfl rfl rfl
  unfold State.minuteBoundary
  split
  · exact ((set _).trans (sweep_kept _)).trans (decideHours_kept _)
  · exact (set _).trans (decideHours_kept _)

theorem setClock_kept (m n : Nat) (s : State) : RosterKept s (s.setClock m n).2 := by
  have set (x : Option WallClock) : RosterKept s { s with wall := x } := .of_fields rfl rfl rfl rfl rfl
  unfold State.setClock
  split
  · exact .refl s
  · exact (((set _).trans (sweep_kept _)).trans (decideHours_kept _)).trans (mark_kept _ _)

theorem newSecond_kept (s : State) : RosterKept s s.newSecond := by
  unfold State.newSecond
  dsimp only
  split <;> exact .of_fields rfl rfl rfl rfl rfl

theorem writeWindowAt_kept (f : WindowFields) (n : WindowNo) (s : State) : RosterKept s (s.writeWindowAt f n).2 := by
  unfold State.writeWindowAt
  split
  · exact .refl s
  · split
    · exact .refl s
    · dsimp only
      split
      · exact .refl s
      · exact (RosterKept.of_fields rfl rfl rfl rfl rfl : RosterKept s (s.setWindow n _)).trans (decideHours_kept _)

theorem leaveService_kept (s : State) (t : StationId) : RosterKept s (s.leaveService t) := by
  have ends (u : State) : RosterKept u (u.endStationLost t) := .of_fields rfl rfl rfl rfl rfl
  exact (((ownerLost_kept s _).trans (ends _)).trans (setStation_kept _ t _)).trans (setNote_kept _ t _)

theorem writeStation_kept (s : State) (t : StationId) (e : StationEntry) : RosterKept s (s.writeStation t e) := by
  unfold State.writeStation
  exact (RosterKept.foldl leaveService_kept _ s).trans (.of_fields rfl rfl rfl rfl rfl)

/-- A zone setting keeps the laws where an occupancy limit is not below the strongroom's count (R121, R178 check 5). -/
theorem writeZoneItem_kept {s : State} {z : Room} {k : ZoneItem} {v : Nat} (h : s.limitRefused z k v = false) :
    RosterKept s (s.writeZoneItem z k v) := by
  refine State.Eases.kept ⟨fun _ => rfl, rfl, fun p m hm => ⟨m, hm, rfl, rfl, .inl⟩,
    fun p k hk _ => Option.isSome_iff_exists.mpr ⟨k, hk⟩, fun _ _ h => h, fun r hr => ?_⟩
  have e : (s.writeZoneItem z k v).zoneSettings r = if z = r then (s.zoneSettings z).withItem k v else s.zoneSettings r :=
    Table.get_set _ _ _ _
  rw [e]
  split
  · next hz =>
    subst hz
    cases k
    case occupancyLimit =>
      have h : s.roomCount z ≤ v := by simpa [State.limitRefused] using h
      exact h
    all_goals exact hr
  · exact hr

theorem settingWrite_kept {s t : State} {a b : Bool} (h : b = false → RosterKept s t) :
    RosterKept s ((settingWrite a b t).outcome s).2 := by
  unfold settingWrite
  split
  · exact .refl s
  · split
    · exact .refl s
    · next hb => exact h (Bool.eq_false_iff.mpr hb)

theorem writeItem_kept (s : State) (i : SettingItem) (v : BitVec 32) : RosterKept s ((s.writeItem i v).outcome s).2 := by
  match i with
  | .station t =>
    unfold State.writeItem
    dsimp only
    split
    · exact .refl s
    · refine settingWrite_kept fun _ => ?_
      split
      · exact .refl s
      · exact writeStation_kept s t _
  | .door d k =>
    refine settingWrite_kept fun _ => ?_
    split
    · exact .refl s
    · exact .of_fields rfl rfl rfl rfl rfl
  | .zone z k => exact settingWrite_kept writeZoneItem_kept
  | .global k =>
    refine settingWrite_kept fun _ => ?_
    cases k <;> exact .of_fields rfl rfl rfl rfl rfl

theorem writeSetting_kept (index : BitVec 16) (v : BitVec 32) (s : State) :
    RosterKept s (s.writeSetting index v).2 := by
  unfold State.writeSetting
  split
  · exact .refl s
  · split
    · exact .refl s
    · split
      · exact .refl s
      · exact writeItem_kept s _ v

end Sys2Proof.Machine

/-! PROOFS. The decisions of the admission unit keep the roster's laws: the checks leave certain what a new record or pending
pair needs. -/

namespace Sys2Proof.Machine

/-! ### Admission (R28 to R42) -/

theorem firstReason_eq_none {l : List (Option Reason)} : firstReason l = none ↔ ∀ c ∈ l, c = none := by
  induction l with
  | nil => simp [firstReason]
  | cons c l ih => cases c <;> simp [firstReason, ih]

theorem check_eq_none {b : Bool} {r : Reason} : check b r = none ↔ b = true := by
  cases b <;> simp [check]

/-- No pending pair holds the permit (R30). -/
theorem pairHolds_eq_false {s : State} {p : PermitIx} :
    s.pairHolds p = false ↔ ∀ r h, s.pair r = some h → h.permit ≠ p := by
  simp only [State.pairHolds, Table.any_false_iff, Option.any_eq_false, decide_eq_false_iff_not]
  exact Iff.rfl

/-- What the checks of outer entry leave certain of the roster: the permit is unlinked and in no pending pair, and the
strongroom has the places (R30). -/
theorem checks8to15_passed {s : State} {p : PermitIx} {m : Permit} {r : Room} {held : Option PermitIx}
    (h : s.checks8to15 p m r held = none) : m.occupant = none ∧ (∀ u q, s.pair u = some q → q.permit ≠ p)
      ∧ (s.list r).length + entering held.isSome ≤ (s.zoneSettings r).occupancyLimit := by
  simp only [State.checks8to15, firstReason_eq_none, List.forall_mem_cons, check_eq_none] at h
  obtain ⟨_, _, inside, room, _⟩ := h
  simp only [Bool.and_eq_true, Option.isNone_iff_eq_none, Bool.not_eq_true'] at inside
  exact ⟨inside.1, pairHolds_eq_false.mp inside.2, of_decide_eq_true room⟩

theorem freeSlots_free {s : State} {o : Slot} (h : o ∈ s.freeSlots) : s.occupant o = none :=
  Option.isNone_iff_eq_none.mp (List.mem_filter.mp h).2

theorem freeSlots_nodup (s : State) : s.freeSlots.Nodup := (List.nodup_finRange 64).filter _

theorem revalidatePair_kept (s : State) (r : Room) : RosterKept s (s.revalidatePair r) := by
  refine State.Eases.kept ⟨fun _ => rfl, rfl, fun p m hm => ⟨m, hm, rfl, rfl, .inl⟩,
    fun p k hk _ => Option.isSome_iff_exists.mpr ⟨k, hk⟩, fun u h hh => ?_, fun _ h => h⟩
  have e : (s.revalidatePair r).pair u = if r = u then (s.pair r).filter (fun q => s.pairStands r q) else s.pair u :=
    Table.get_set _ _ _ _
  rw [e] at hh
  split at hh
  · next hr =>
    subst hr
    exact (Option.filter_eq_some_iff.mp hh).1
  · exact hh

theorem beginGrant_kept (s : State) (d : DoorNo) (g : Grant) : RosterKept s (s.beginGrant d g) :=
  .of_only (beginGrant_only s d g) rfl

theorem denied_kept (s : State) (d : DoorNo) (c : Credential) (x : Reason) : RosterKept s (s.denied d c x).1 :=
  modDoor_kept s d fun y => { y with lastDenial := some ⟨x, c⟩ }

section
variable {s : State} {r : Room} {p : PermitIx} {m : Permit} (hm : s.permit p = some m) (hl : m.occupant = none)
  (hp : ∀ u h, s.pair u = some h → h.permit ≠ p)
include hm hl hp

/-- A grant to a permit alone (R33). -/
theorem grantAlone_kept {o : Slot} (d : Bool) (k : GrantKind) (ho : s.occupant o = none)
    (hr : (s.list r).length + 1 ≤ (s.zoneSettings r).occupancyLimit) : RosterKept s (s.grantAlone r p d k o) :=
  (createRecord_kept d none ho hm hl hp hr).trans (beginGrant_kept _ _ _)

/-- The first holder of a pair is held at the outer door (R35). -/
theorem holdPair_kept (d : Bool) (t : Nat) : RosterKept s (s.setPair r (some ⟨p, d, t⟩)) := by
  intro k
  have cases_at : ∀ {u h}, (s.setPair r (some ⟨p, d, t⟩)).pair u = some h →
      (u = r ∧ h.permit = p) ∨ (u ≠ r ∧ s.pair u = some h) := by
    intro u h hh
    rw [pair_setPair] at hh
    split at hh
    · next e =>
      cases hh
      exact .inl ⟨e.symm, rfl⟩
    · next e => exact .inr ⟨fun h => e h.symm, hh⟩
  refine { k with held := fun u h hh => ?_, apart := fun u v h q hh hq e => ?_ }
  · rcases cases_at hh with ⟨_, e⟩ | ⟨_, hh⟩
    · exact ⟨m, e ▸ hm, hl⟩
    · exact k.held u h hh
  · rcases cases_at hh with ⟨hu, eu⟩ | ⟨_, hu⟩ <;> rcases cases_at hq with ⟨hv, ev⟩ | ⟨_, hv⟩
    · exact hu.trans hv.symm
    · exact absurd (e.symm.trans eu) (hp v q hv)
    · exact absurd (e.trans ev) (hp u h hu)
    · exact k.apart u v h q hu hv e

/-- A grant to a pair (R36): the held holder's pair ends, and both records are created. -/
theorem grantPair_kept {o1 o2 : Slot} {q : PendingPair} (d : Bool) (hq : s.pair r = some q) (h1 : s.occupant o1 = none)
    (h2 : s.occupant o2 = none) (hne : o1 ≠ o2)
    (hr : (s.list r).length + 2 ≤ (s.zoneSettings r).occupancyLimit) : RosterKept s (s.grantPair r q p d o1 o2) := by
  intro k
  obtain ⟨n, hn, hnl⟩ := k.held r q hq
  -- the pair may as well be dropped before the records are created
  have drop : ∀ (v : State) o x e w, (v.createRecord o r x e w).setPair r none
      = (v.setPair r none).createRecord o r x e w := by
    intro v o x e w
    unfold State.createRecord State.chargePermit
    have : ((((v.setPair r none).setOccupant o (some ((v.setPair r none).newOccupant r x e w))).setList r
        ((v.setPair r none).list r ++ [o])).permit x)
        = ((v.setOccupant o (some (v.newOccupant r x e w))).setList r (v.list r ++ [o])).permit x := rfl
    rw [this]
    split <;> rfl
  have away : ∀ u h, (s.setPair r none).pair u = some h → h.permit ≠ q.permit ∧ h.permit ≠ p := by
    intro u h hh
    rw [pair_setPair] at hh
    split at hh
    · cases hh
    · next hu => exact ⟨fun e => hu (k.apart u r h q hh hq e).symm, hp u h hh⟩
  have first : RosterSound ((s.setPair r none).createRecord o1 r q.permit q.duress (some o2)) :=
    createRecord_kept _ _ h1 hn hnl (fun u h hh => (away u h hh).1) (Nat.le_of_succ_le hr) (setPair_none_kept s r k)
  have second : RosterSound (((s.setPair r none).createRecord o1 r q.permit q.duress (some o2)).createRecord o2 r p d
      (some o1)) := by
    refine createRecord_kept (m := m) _ _ ?_ ?_ hl (fun u h hh => ?_) ?_ first
    · rw [createRecord_occupant, if_neg hne]
      exact h2
    · rw [createRecord_permit (s := s.setPair r none) _ _ hn, if_neg (hp r q hq)]
      exact hm
    · rw [createRecord_pair] at hh
      exact (away u h hh).2
    · rw [createRecord_list, if_pos rfl, createRecord_zoneSettings, List.length_append]
      exact hr
  refine beginGrant_kept _ _ _ ?_
  rw [drop, drop]
  exact second

/-- Check 16 and the grant (R32, R33, R35, R36). -/
theorem admitOuter_kept (d : Bool)
    (hr : (s.list r).length + entering ((s.pair r).map PendingPair.permit).isSome ≤ (s.zoneSettings r).occupancyLimit) :
    RosterKept s (s.admitOuter r p d).1 := by
  have free : ∀ {o l}, s.freeSlots = l → o ∈ l → s.occupant o = none := fun e ho => freeSlots_free (e ▸ ho)
  unfold State.admitOuter
  split
  · next e =>
    refine grantAlone_kept hm hl hp d .entry (free e (List.mem_cons_self ..)) (Nat.le_trans ?_ hr)
    refine Nat.add_le_add_left ?_ _
    unfold entering
    split <;> decide
  · next q o1 o2 l _ hq e =>
    have hn : (o1 :: o2 :: l).Nodup := e ▸ freeSlots_nodup s
    refine grantPair_kept hm hl hp d hq (free e (by simp)) (free e (by simp))
      (fun h => (List.nodup_cons.mp hn).1 (by simp [h])) ?_
    simpa [hq, entering] using hr
  · exact holdPair_kept hm hl hp d _
  · exact denied_kept s _ 0 _

end

theorem decideAfterPin_kept {s : State} {r : Room} {p : PermitIx} {m : Permit} (hm : s.permit p = some m)
    (c : Credential) (d : Bool) : RosterKept s (s.decideAfterPin r p m c d).1 := by
  have raised : ∀ t : State, t.permit p = some m → RosterKept t
      (match t.checks8to15 p m r ((t.pair r).map PendingPair.permit) with
        | some reason => t.denied (outerDoor r) c reason
        | none => t.admitOuter r p d).1 := by
    intro t ht
    split
    · exact denied_kept t _ c _
    · next h =>
      obtain ⟨hl, hp, hr⟩ := checks8to15_passed h
      exact admitOuter_kept ht hl hp d hr
  refine RosterKept.trans (t := if d then s.raise (keyDuress r (outerDoor r) none) (some p) else s) ?_ (raised _ ?_)
  · split
    · exact raise_kept s _ _
    · exact .refl s
  · split <;> exact hm

/-- A PIN outcome changes neither the credential nor the link of a permit, and makes none RETIRING (R15). -/
theorem afterPin_keeps (m : Permit) (out : PinOutcome) : (m.afterPin out).credential = m.credential
    ∧ (m.afterPin out).occupant = m.occupant ∧ ((m.afterPin out).state = .retiring → m.state = .retiring) := by
  unfold Permit.afterPin
  split
  any_goals exact ⟨rfl, rfl, id⟩
  split
  · exact ⟨rfl, rfl, id⟩
  · refine ⟨rfl, rfl, fun h => ?_⟩
    dsimp only at h
    split at h
    · assumption
    · cases h

/-- The permit after check 7, whether a PIN was asked or not (R14, R15). -/
def Permit.checkedPin (m : Permit) (presented : Option (BitVec 16)) : Permit :=
  match m.pinOutcome presented with
  | none => m
  | some out => m.afterPin out

theorem decidePin_eq (s : State) (r : Room) (p : PermitIx) (m : Permit) (q : Presentation) : s.decidePin r p m q
    = match m.pinReason (m.pinOutcome q.pin) with
      | some reason => (s.setPermit p (some (m.checkedPin q.pin))).denied (outerDoor r) q.credential reason
      | none => (s.setPermit p (some (m.checkedPin q.pin))).decideAfterPin r p (m.checkedPin q.pin) q.credential
        (decide (m.pinOutcome q.pin = some PinOutcome.duress)) := rfl

theorem checkedPin_keeps (m : Permit) (v : Option (BitVec 16)) : (m.checkedPin v).credential = m.credential
    ∧ (m.checkedPin v).occupant = m.occupant ∧ ((m.checkedPin v).state = .retiring → m.state = .retiring) := by
  unfold Permit.checkedPin
  split
  · exact ⟨rfl, rfl, id⟩
  · exact afterPin_keeps m _

theorem decidePin_kept {s : State} {r : Room} {p : PermitIx} {m : Permit} (hm : s.permit p = some m)
    (q : Presentation) : RosterKept s (s.decidePin r p m q).1 := by
  obtain ⟨hc, ho, hs⟩ := checkedPin_keeps m q.pin
  rw [decidePin_eq]
  refine (setPermit_kept hm hc ho fun h => .inl (hs h)).trans ?_
  split
  · exact denied_kept _ _ _ _
  · exact decideAfterPin_kept (by rw [permit_setPermit, if_pos rfl]) _ _

theorem decideOuter_kept (s : State) (r : Room) (q : Presentation) : RosterKept s (s.decideOuter r q).1 := by
  refine (revalidatePair_kept s r).trans ?_
  unfold State.decideOuter
  dsimp only
  split
  · exact denied_kept _ _ _ _
  · next p m hf =>
    have hm : (s.revalidatePair r).permit p = some m := by
      obtain ⟨p', _, h⟩ := Option.bind_eq_some_iff.mp hf
      obtain ⟨m', hm', e⟩ := Option.map_eq_some_iff.mp h
      cases e
      exact hm'
    split
    · exact .refl _
    · split
      · exact denied_kept _ _ _ _
      · exact decidePin_kept hm q

theorem decideInner_kept (s : State) (r : Room) (q : Presentation) : RosterKept s (s.decideInner r q).1 := by
  unfold State.decideInner
  split
  · exact denied_kept s _ _ _
  · split
    · exact denied_kept s _ _ _
    · split
      · exact denied_kept s _ _ _
      · exact beginGrant_kept s _ _

theorem takeCheckIn_kept (s : State) (o : Slot) : RosterKept s (s.takeCheckIn o) := by
  unfold State.takeCheckIn
  split
  · exact .refl s
  · next hx =>
    split
    · exact .refl s
    · split
      · exact .of_fields rfl rfl rfl rfl rfl
      · exact setOccupant_kept hx rfl

theorem decideCheckIn_kept (s : State) (r : Room) (q : Presentation) : RosterKept s (s.decideCheckIn r q).1 := by
  have duress (o : Slot) : RosterKept s (s.raiseCheckInDuress r o) := by
    unfold State.raiseCheckInDuress
    split
    · exact .refl s
    · next x hx =>
      exact (setOccupant_kept (y := { x with duress := true }) hx rfl).trans (raise_kept _ _ _)
  unfold State.decideCheckIn
  split
  · exact .refl s
  · dsimp only
    split
    · exact (duress _).trans (takeCheckIn_kept _ _)
    · exact takeCheckIn_kept s _

/-- A presentation decided (R27). -/
theorem decidePresentation_kept (s : State) (role : Role) (q : Presentation) :
    RosterKept s (s.decidePresentation role q).1 := by
  unfold State.decidePresentation
  split
  · split
    · exact decideOuter_kept s _ q
    · exact decideInner_kept s _ q
    · exact takeExit_kept s _ _
    · exact decideCheckIn_kept s _ q
    · exact .refl s
  · unfold State.decideMuster
    split
    · exact .refl s
    · exact leaveRoster_kept s _
  all_goals exact .refl s

theorem decideLoop_kept (s : State) (l : LoopNo) : RosterKept s (s.decideLoop l) := by
  unfold State.decideLoop
  split
  · exact .refl s
  · split
    · exact (decidePresentation_kept s _ _).trans (toHandshake_kept _ _ _)
    all_goals exact .refl s

theorem grantEntry_kept (s : State) (d p : BitVec 16) : RosterKept s (s.grantEntry d p).2 := by
  have granted {r : Room} {p : PermitIx} {m : Permit} (hm : s.permit p = some m) :
      RosterKept s (s.grantEntryFor r p m).2 := by
    refine (revalidatePair_kept s r).trans ?_
    unfold State.grantEntryFor
    dsimp only
    split
    · exact .refl _
    · next o l h e =>
      simp only [State.grantChecks, firstReason_eq_none, List.forall_mem_cons] at h
      obtain ⟨_, h, _⟩ := h
      obtain ⟨hl, hp, hr⟩ := checks8to15_passed h
      exact grantAlone_kept (s := s.revalidatePair r) hm hl hp false .remoteEntry
        (freeSlots_free (e ▸ List.mem_cons_self ..)) hr
    · exact .refl _
  unfold State.grantEntry
  split
  · split
    · split
      · exact .refl s
      · next hm => exact granted hm
    · exact .refl s
  · exact .refl s

end Sys2Proof.Machine

/-! PROOFS. Every event, request and command keeps the roster's laws (O57). -/

namespace Sys2Proof.Machine

/-! ### Events and requests -/

theorem RosterKept.of_steady {s t : State} (h : t.steady = s.steady) : RosterKept s t := by
  have permit : t.permit = s.permit := by
    funext p
    exact congrArg (Table.get · p) (permits_of_steady h)
  refine State.Eases.kept ⟨fun o => naming_of_unwatched (occupant_of_steady h o), lists_of_steady h,
    fun p m hm => ⟨m, permit ▸ hm, rfl, rfl, .inl⟩, fun p k hk _ => ?_, fun r q hq => ?_, fun r hr => ?_⟩
  · rw [permit, hk]
    rfl
  · exact (congrArg (Table.get · r) (pairs_of_steady h)).symm.trans hq
  · have e : t.zoneSettings r = s.zoneSettings r :=
      congrArg (fun c : Settings => c.zones.get r) (settings_of_steady h)
    rw [e]
    exact hr

theorem event_kept {f : State → State} (s : State) (h : ∀ v, RosterKept v (f v)) : RosterKept s (s.event f) := by
  unfold State.event
  split
  · exact ((RosterKept.of_fields rfl rfl rfl rfl rfl : RosterKept s { s with handedRaises := [] }).trans (h _)).trans
      (.of_steady (finish_frame s _))
  · exact .refl s

theorem fieldEvent_kept {f : State → State} (s : State) (h : ∀ v, RosterKept v (f v)) :
    RosterKept s (s.fieldEvent f) := by
  unfold State.fieldEvent
  split
  · exact .refl s
  · exact event_kept s h

/-- A field event that acts on a condition only. -/
theorem fieldEvent_if_kept {c : State → Prop} [∀ v, Decidable (c v)] {f : State → State} (s : State)
    (h : ∀ v, RosterKept v (f v)) : RosterKept s (s.fieldEvent fun v => if c v then f v else v) := by
  refine fieldEvent_kept s fun v => ?_
  split
  · exact h v
  · exact .refl v

theorem serve_kept {act : State → Answer × State} (s : State) (h : ∀ v, RosterKept v (act v).2) :
    RosterKept s (s.serve act) := by
  unfold State.serve
  split
  · exact event_kept s fun v => (h v).trans (.of_fields rfl rfl rfl rfl rfl)
  · exact .refl s

/-- A request on a record of a kind. -/
theorem serve_onRecord_kept {n : Nat} {act : Fin n → State → Answer × State} (index : BitVec 16) (s : State)
    (h : ∀ i v, RosterKept v (act i v).2) : RosterKept s (s.serve fun v => onRecord index v act) := by
  refine serve_kept s fun v => ?_
  unfold onRecord
  split
  · exact h _ v
  · exact .refl v

theorem report_kept (s : State) (answer : State → Answer) : RosterKept s (s.report answer) := by
  unfold State.report
  split
  · exact .of_fields rfl rfl rfl rfl rfl
  · exact .refl s

/-! ### Alarms and watches -/

theorem raiseLoneWorker_kept (s : State) (o : Slot) (t : Nat) : RosterKept s (s.raiseLoneWorker o t) :=
  .of_only (raiseLoneWorker_only s o t) rfl

theorem setWatch_kept (s : State) (o : Slot) (w : Option Watch) : RosterKept s (s.setWatch o w) :=
  .of_only (setWatch_only s o w) rfl

theorem acknowledgeAt_kept (i : AlarmSlot) (s : State) : RosterKept s (s.acknowledgeAt i).2 := by
  unfold State.acknowledgeAt
  split
  · exact .refl s
  · split
    · exact .refl s
    · exact .of_only (setAlarm_only s i _) rfl

theorem clearAlarmAt_kept (i : AlarmSlot) (s : State) : RosterKept s (s.clearAlarmAt i).2 := by
  have overflow (t : State) : RosterKept t t.clearOverflow := by
    unfold State.clearOverflow
    split
    · exact (RosterKept.of_fields rfl rfl rfl rfl rfl : RosterKept t { t with overflow := false }).trans
        (.of_only (catchUps_only _) rfl)
    · exact .refl t
  have removed (a : Alarm) : RosterKept s (s.removeAlarm i a) :=
    ((RosterKept.of_only (setAlarm_only s i none) rfl).trans (.of_only (alarmRemoved_only _ a) rfl)).trans (overflow _)
  unfold State.clearAlarmAt
  split
  · exact .refl s
  · split
    · exact .refl s
    · split
      · exact removed _
      · exact .refl s

theorem advanceWatch_kept (s : State) (o : Slot) (st : WatchStage) (t : Nat) : RosterKept s (s.advanceWatch o st t) := by
  cases st
  · exact setWatch_kept s o _
  · exact setWatch_kept s o _
  · exact raiseLoneWorker_kept s o _
  · exact .refl s

/-! ### Start-up and supply -/

/-- A part at its power-on values has no permit, no record and no pair. -/
theorem powerOn_sound (c : Settings) (d : Bool) (i : Option Settings) : RosterSound (State.powerOn c d i) := by
  constructor <;> simp [State.powerOn, State.permit, State.occupant, State.pair, State.list]

theorem stopped_kept (s : State) (p : Power) : RosterKept s (s.stopped p) := fun _ =>
  (RosterKept.of_fields rfl rfl rfl rfl rfl : RosterKept (State.powerOn Settings.factory false s.imageAfterStop)
    (s.stopped p)) (powerOn_sound _ _ _)

theorem loaded_kept (s : State) (c : Settings) (d : Bool) :
    RosterKept s { State.powerOn c d s.image with pending := s.pending } := fun _ =>
  (RosterKept.of_fields rfl rfl rfl rfl rfl : RosterKept (State.powerOn c d s.image)
    { State.powerOn c d s.image with pending := s.pending }) (powerOn_sound _ _ _)

/-- Every block at the supply restart: the pending pairs are dropped, and the doors' grants end (R37, R44, R184). -/
theorem restartBlocks_kept (s : State) (p : LowPeriod) : RosterKept s (s.restartBlocks p) := by
  have dropped {t : State} (hp : t.permits = s.permits) (ho : t.occupants = s.occupants) (hl : t.lists = s.lists)
      (hz : t.settings = s.settings) (hq : t.pairs = Table.replicate 16 none) : RosterKept s t := by
    have permit : t.permit = s.permit := by unfold State.permit; rw [hp]
    refine State.Eases.kept ⟨fun o => by unfold State.occupant; rw [ho], hl,
      fun p m hm => ⟨m, permit ▸ hm, rfl, rfl, .inl⟩, fun p k hk _ => by rw [permit, hk]; rfl, fun r h hh => ?_,
      fun r hr => by unfold State.zoneSettings; rw [hz]; exact hr⟩
    unfold State.pair at hh
    rw [hq, Table.get_replicate] at hh
    cases hh
  have stations (t : State) : RosterKept t t.restartStations := .of_fields rfl rfl rfl rfl rfl
  have zones (t : State) : RosterKept t t.restartZones := .of_fields rfl rfl rfl rfl rfl
  have watches (t : State) : RosterKept t (t.extendWatches p.since) := by
    refine State.Eases.kept ⟨fun o => ?_, rfl, fun p m hm => ⟨m, hm, rfl, rfl, .inl⟩,
      fun p k hk _ => Option.isSome_iff_exists.mpr ⟨k, hk⟩, fun _ _ h => h, fun _ h => h⟩
    refine (congrArg (Option.map Occupant.naming) (Table.get_map _ t.occupants o)).trans ?_
    rw [Option.map_map]
    rfl
  refine RosterKept.trans (dropped ?_ ?_ ?_ ?_ ?_) ((((stations _).trans (restartDoors_kept _)).trans (zones _)).trans
    (watches _)) <;> rfl

theorem finishRestart_kept (old s : State) (p : LowPeriod) : RosterKept s (State.finishRestart old s p) := by
  have unescorted (t : State) :
      ((List.finRange 16).foldl (State.unescortedRoom p.unescorted.get) t).steady = t.steady :=
    foldl_view (view := State.steady) (fun t r => steady_unescortedRoom _ t r) _ _
  have marked (t : State) : ({ t with changes := ChangeSet.full } : State).steady = t.steady := rfl
  refine .of_steady ?_
  unfold State.finishRestart
  dsimp only
  rw [marked, steady_watchPass, steady_takeRaises, unescorted, steady_holdPass]

/-! ### Every command -/

/-- Every command keeps the roster's laws. -/
theorem exec_kept (c : Instr) (s : State) : ∃ t, exec c s = .next t ∧ RosterKept s t := by
  cases c with
  | powerOn cause =>
    refine ⟨_, rfl, ?_⟩
    split
    · cases cause <;> exact .of_fields rfl rfl rfl rfl rfl
    all_goals exact .refl s
  | resetInput => exact ⟨_, rfl, stopped_kept s _⟩
  | supplyBelowRetention => exact ⟨_, rfl, stopped_kept s _⟩
  | imageLoad =>
    refine ⟨_, rfl, ?_⟩
    split
    · split <;> exact loaded_kept s _ _
    all_goals exact .refl s
  | supplyLow =>
    refine ⟨_, rfl, ?_⟩
    split
    · exact .of_fields rfl rfl rfl rfl rfl
    · exact .refl s
    · exact fieldEvent_kept s fun v => .of_fields rfl rfl rfl rfl rfl
  | supplyRestart =>
    refine ⟨_, rfl, ?_⟩
    split
    · next p _ _ =>
      exact ((RosterKept.of_fields rfl rfl rfl rfl rfl : RosterKept s { s with handedRaises := [] }).trans
        (restartBlocks_kept _ p)).trans (finishRestart_kept s _ p)
    · exact .refl s
  | keyValidated on =>
    refine ⟨_, rfl, ?_⟩
    split
    · exact .of_fields rfl rfl rfl rfl rfl
    · exact .refl s
  | uptimeSecond =>
    refine ⟨_, rfl, event_kept s fun v => ?_⟩
    split
    · exact newSecond_kept v
    · exact .refl v
  | holdLimitReached zone =>
    exact ⟨_, rfl, fieldEvent_if_kept s fun v =>
      (RosterKept.of_only (setZone_only v zone _) rfl).trans (raise_kept _ _ none)⟩
  | minuteBoundary =>
    refine ⟨_, rfl, event_kept s fun v => ?_⟩
    split
    · split
      · exact minuteBoundary_kept v _
      · exact .refl v
    · exact .refl v
  | referenceEdge =>
    refine ⟨_, rfl, event_kept s fun v => ?_⟩
    split
    · exact .of_fields rfl rfl rfl rfl rfl
    all_goals exact .refl v
  | referenceGap =>
    refine ⟨_, rfl, event_kept s fun v => ?_⟩
    split
    · exact .refl v
    all_goals exact .of_fields rfl rfl rfl rfl rfl
  | provingPeriodEnd =>
    refine ⟨_, rfl, event_kept s fun v => ?_⟩
    split
    · exact .of_fields rfl rfl rfl rfl rfl
    · exact .refl v
  | commitCompletion verified =>
    refine ⟨_, rfl, event_kept s fun v => ?_⟩
    unfold State.completeCommit
    split
    · exact .refl v
    · split <;> exact .of_fields rfl rfl rfl rfl rfl
  | windowStart =>
    refine ⟨_, rfl, ?_⟩
    split
    · exact .of_fields rfl rfl rfl rfl rfl
    all_goals exact .refl s
  | windowEnd => exact ⟨_, rfl, .of_fields rfl rfl rfl rfl rfl⟩
  | windowDiscard first =>
    refine ⟨_, rfl, ?_⟩
    split
    · exact .of_fields rfl rfl rfl rfl rfl
    · exact .refl s
  | badFrame frame =>
    refine ⟨_, rfl, ?_⟩
    split
    · exact .of_fields rfl rfl rfl rfl rfl
    · exact .refl s
  | answerSent =>
    refine ⟨_, rfl, ?_⟩
    split
    · exact .of_fields rfl rfl rfl rfl rfl
    · exact .refl s
  | readStatus => exact ⟨_, rfl, serve_kept s fun v => .of_fields rfl rfl rfl rfl rfl⟩
  | takeChanges => exact ⟨_, rfl, serve_kept s fun v => .of_fields rfl rfl rfl rfl rfl⟩
  | setAttention a b =>
    refine ⟨_, rfl, serve_kept s fun v => ?_⟩
    unfold State.setAttention
    split
    · exact .refl v
    · exact .of_fields rfl rfl rfl rfl rfl
  | restart => exact ⟨_, rfl, serve_kept s fun v => .of_fields rfl rfl rfl rfl rfl⟩
  | findPermit c => exact ⟨_, rfl, report_kept s _⟩
  | readPermit index => exact ⟨_, rfl, report_kept s _⟩
  | readRoster index => exact ⟨_, rfl, report_kept s _⟩
  | readOccupant index => exact ⟨_, rfl, report_kept s _⟩
  | readDoor index => exact ⟨_, rfl, report_kept s _⟩
  | readZone index => exact ⟨_, rfl, report_kept s _⟩
  | readAlarm index => exact ⟨_, rfl, report_kept s _⟩
  | readClock => exact ⟨_, rfl, report_kept s _⟩
  | readWindow index => exact ⟨_, rfl, report_kept s _⟩
  | readStation index => exact ⟨_, rfl, report_kept s _⟩
  | readSetting index => exact ⟨_, rfl, report_kept s _⟩
  | writePermit index f => exact ⟨_, rfl, serve_onRecord_kept index s (writePermitAt_kept f)⟩
  | amendPermit index a => exact ⟨_, rfl, serve_onRecord_kept index s (amendPermitAt_kept a)⟩
  | retirePermit index => exact ⟨_, rfl, serve_onRecord_kept index s retirePermitAt_kept⟩
  | retireOccupant index =>
    refine ⟨_, rfl, serve_onRecord_kept index s fun o v => ?_⟩
    unfold State.retireOccupantAt
    split
    · exact .refl v
    · exact leaveRoster_kept v o
  | confirmVacant index =>
    refine ⟨_, rfl, serve_onRecord_kept index s fun r v => ?_⟩
    unfold State.confirmVacantAt
    split
    · exact .refl v
    · split
      · exact .refl v
      · exact .of_fields rfl rfl rfl rfl rfl
  | grantEntry index permit => exact ⟨_, rfl, serve_kept s fun v => grantEntry_kept v index permit⟩
  | releaseExit index => exact ⟨_, rfl, serve_onRecord_kept index s fun d v => takeExit_kept v d []⟩
  | setDoorMode index mode =>
    refine ⟨_, rfl, serve_onRecord_kept index s fun d v => ?_⟩
    unfold State.setDoorModeAt
    split
    · exact .refl v
    · exact setModeTo_kept v d _
  | resetDoor index =>
    refine ⟨_, rfl, serve_onRecord_kept index s fun d v => ?_⟩
    unfold State.resetDoorAt
    split
    · dsimp only
      split
      · exact .of_only (toOpen_only v d none) rfl
      · exact toBolting_kept v d
    · exact .refl v
  | clearCounts index => exact ⟨_, rfl, serve_onRecord_kept index s fun d v => modDoor_kept v d _⟩
  | isolateZone index => exact ⟨_, rfl, serve_onRecord_kept index s isolateZoneAt_kept⟩
  | restoreZone index => exact ⟨_, rfl, serve_onRecord_kept index s restoreZoneAt_kept⟩
  | resetZone index => exact ⟨_, rfl, serve_onRecord_kept index s resetZoneAt_kept⟩
  | acknowledgeAlarm index => exact ⟨_, rfl, serve_onRecord_kept index s acknowledgeAt_kept⟩
  | clearAlarm index => exact ⟨_, rfl, serve_onRecord_kept index s clearAlarmAt_kept⟩
  | clearLostCount => exact ⟨_, rfl, serve_kept s fun v => .of_fields rfl rfl rfl rfl rfl⟩
  | setClock minute second => exact ⟨_, rfl, serve_kept s (setClock_kept _ _)⟩
  | writeWindow index f => exact ⟨_, rfl, serve_onRecord_kept index s (writeWindowAt_kept f)⟩
  | writeSetting index v => exact ⟨_, rfl, serve_kept s (writeSetting_kept index v)⟩
  | commitSettings =>
    refine ⟨_, rfl, serve_kept s fun v => ?_⟩
    unfold State.beginCommit
    split
    · exact .refl v
    · split
      · exact .refl v
      · exact .of_fields rfl rfl rfl rfl rfl
  | poll loop =>
    refine ⟨_, rfl, ?_⟩
    split
    · exact sendPoll_kept s loop
    · exact .refl s
  | goodAnswer st a => exact ⟨_, rfl, fieldEvent_if_kept s fun v => takeAnswer_kept v st a⟩
  | missedAnswer st cause => exact ⟨_, rfl, fieldEvent_if_kept s fun v => missAnswer_kept v st⟩
  | presentationDecided loop => exact ⟨_, rfl, event_kept s fun v => decideLoop_kept v loop⟩
  | pairWindowEnd room =>
    refine ⟨_, rfl, event_kept s fun v => ?_⟩
    split
    · exact setPair_none_kept v room
    · exact .refl v
  | travelLimit door => exact ⟨_, rfl, fieldEvent_if_kept s fun v => travelRunsOut_kept v door⟩
  | lapse door =>
    exact ⟨_, rfl, fieldEvent_if_kept s fun v =>
      (endGrant_kept v door).trans (.of_only (toBoltingOrHeld_only _ door) rfl)⟩
  | heldOpenLimit door =>
    exact ⟨_, rfl, fieldEvent_if_kept s fun v => (modDoor_kept v door _).trans (raise_kept _ _ none)⟩
  | reboltDelayEnd door =>
    exact ⟨_, rfl, fieldEvent_if_kept s fun v =>
      (completePassage_kept v door).trans (.of_only (toBoltingOrHeld_only _ door) rfl)⟩
  | countdownEnd zone => exact ⟨_, rfl, fieldEvent_if_kept s fun v => countdownEnds_kept v zone⟩
  | pulseEnd zone => exact ⟨_, rfl, fieldEvent_if_kept s fun v => .of_only (setZone_only v zone _) rfl⟩
  | confirmEnd zone => exact ⟨_, rfl, fieldEvent_if_kept s fun v => confirmEnds_kept v zone⟩
  | watchDeadline slot =>
    refine ⟨_, rfl, fieldEvent_kept s fun v => ?_⟩
    split
    · exact advanceWatch_kept v slot _ _
    · exact .refl v
  | loneWorkerRepeat slot =>
    refine ⟨_, rfl, fieldEvent_kept s fun v => ?_⟩
    split
    · exact raiseLoneWorker_kept v slot _
    · exact .refl v

/-- Settles O57: every command keeps the laws, and so does the queue's front being taken and a millisecond passing. -/
theorem rosterStaysSound : Obligations.RosterStaysSound := by
  intro s t hs h
  unfold step at h
  split at h
  · cases h
    refine (?_ : RosterKept s s.idle) hs
    unfold State.idle
    split
    · exact .of_fields rfl rfl rfl rfl rfl
    · exact .refl s
  · next c rest _ =>
    obtain ⟨u, hu, hk⟩ := exec_kept c { s with pending := rest }
    cases hu.symm.trans h
    exact ((RosterKept.of_fields rfl rfl rfl rfl rfl : RosterKept s { s with pending := rest }).trans hk) hs

end Sys2Proof.Machine

/-! PROOFS. Quiet events: what the end of an event makes of a change that hands no raise, moves no list and no condition of a
hold reason. The watches are evaluated, the changes marked, and nothing else happens. -/

namespace Sys2Proof.Machine

/-- A change that the end of an event answers with watches and marks only. -/
structure QuietChange (s u : State) : Prop where
  noRaise : u.handedRaises = []
  lists : u.lists = s.lists
  conditions : ∀ z, u.conditions z = s.conditions z

theorem QuietChange.finish {s u : State} (h : QuietChange s u) :
    State.finish s u = State.markPass s (State.watchPass s u) :=
  finish_quiet s u h.noRaise h.lists h.conditions

theorem watchPass_only (old s : State) : OnlyChanges [.watches] s (State.watchPass old s) := by
  intro q hq
  cases q <;> first
    | exact fun o => occupant_of_steady (steady_watchPass old s) o
    | exact absurd (by decide) hq
    | rfl

/-- A watch that no record's change calls for stays as it was. -/
theorem watchPass_watch {old s : State} {o : Slot}
    (h : ∀ x, s.occupant o = some x → State.watchTriggered old s x = false) :
    (State.watchPass old s).watch o = s.watch o := by
  have e : (State.watchPass old s).occupant o = (s.occupant o).map fun x =>
      if State.watchTriggered old s x then { x with watch := s.evaluatedWatch x } else x := Table.get_map _ _ _
  unfold State.watch
  rw [e]
  cases hx : s.occupant o with
  | none => rfl
  | some x => simp [h x hx]

/-- No watch is evaluated where no record asks for it. -/
theorem watchPass_of_records {old s : State}
    (h : ∀ o x, s.occupant o = some x → State.watchTriggered old s x = false) : State.watchPass old s = s := by
  have e : (s.occupants.map fun x => x.map fun o =>
      if State.watchTriggered old s o then { o with watch := s.evaluatedWatch o } else o) = s.occupants := by
    refine Table.map_id' _ _ fun o => ?_
    cases hx : s.occupants.get o with
    | none => rfl
    | some x => simp [h o x hx]
  unfold State.watchPass
  rw [e]

/-- The end of a quiet change writes marks, and the watches of records that ask for it. -/
theorem watched_only {s u : State} {parts : List Part} (ho : OnlyChanges parts s u)
    (hw : Part.watches ∈ parts ∨ ∀ o x, u.occupant o = some x → State.watchTriggered s u x = false) :
    OnlyChanges (.changes :: parts) s (State.markPass s (State.watchPass s u)) := by
  have watches : OnlyChanges parts u (State.watchPass s u) := by
    rcases hw with hw | hw
    · exact (watchPass_only s u).mono (by simpa using hw)
    · rw [watchPass_of_records hw]
      exact .refl parts u
  exact ((ho.trans watches).mono fun _ h => List.mem_cons_of_mem _ h).trans ((markPass_only s _).mono (by simp))

theorem answering_only (s : State) (a : Answer) : OnlyChanges [.framer] s (s.answering a) := by
  intro q hq; cases q <;> first | rfl | exact fun _ => rfl | exact absurd (by decide) hq

/-- A request whose change is quiet. -/
theorem takes_of_quiet {c : Instr} {s u : State} {act : State → Answer × State} {a : Answer} {parts : List Part}
    {after : State → Prop} (hs : s.Ready) (he : exec c s = .next (s.serve act)) (ha : act s = (a, u))
    (hq : QuietChange s u) (ho : OnlyChanges (.changes :: parts) s u)
    (hw : Part.watches ∈ parts ∨ ∀ o x, u.occupant o = some x → State.watchTriggered s u x = false)
    (hafter : after (State.markPass s (State.watchPass s (u.answering a)))) : Takes c s a parts after := by
  have e : s.serve act = State.markPass s (State.watchPass s (u.answering a)) := by
    rw [serve_of_action s u act a hs.running hs.receiving hs.noRaise ha]
    exact QuietChange.finish ⟨hq.noRaise, hq.lists, hq.conditions⟩
  refine ⟨_, he.trans (congrArg _ e), rfl, ?_, hafter⟩
  have answered : OnlyChanges (.framer :: .changes :: parts) s (u.answering a) :=
    (ho.mono fun _ h => List.mem_cons_of_mem _ h).trans ((answering_only u a).mono (by simp))
  refine (watched_only answered (hw.imp_left fun h => ?_)).mono fun q h => ?_
  · exact List.mem_cons_of_mem _ (List.mem_cons_of_mem _ h)
  · simp only [List.mem_cons] at h ⊢
    exact h.elim (fun h => .inr (.inl h)) id

/-- An event of the running part whose change is quiet. -/
theorem happens_of_quiet {c : Instr} {s u : State} {f : State → State} {parts : List Part} {after : State → Prop}
    (hs : s.running = true) (hr : s.handedRaises = []) (he : exec c s = .next (s.event f)) (hf : f s = u)
    (hq : QuietChange s u) (ho : OnlyChanges (.changes :: parts) s u)
    (hw : Part.watches ∈ parts ∨ ∀ o x, u.occupant o = some x → State.watchTriggered s u x = false)
    (hafter : after (State.markPass s (State.watchPass s u))) : Happens c s parts after := by
  have e : s.event f = State.markPass s (State.watchPass s u) := by
    rw [event_of_running s f hs, clear_handedRaises s hr, hf]
    exact hq.finish
  refine ⟨_, he.trans (congrArg _ e), (watched_only ho (hw.imp_left (List.mem_cons_of_mem _))).mono fun q h => ?_, hafter⟩
  simp only [List.mem_cons] at h ⊢
  exact h.elim .inl id

/-- The end of an event takes no mark away (R169). -/
theorem markPass_has {old s : State} {i : Identity} (h : s.changes.has i = true) :
    (State.markPass old s).changes.has i = true := by
  cases i <;> simp only [ChangeSet.has] at h <;> simp [State.markPass, ChangeSet.has, markTable, markViews, h]

theorem mark_has (s : State) (i : Identity) : (s.mark i).changes.has i = true := by
  cases i <;> simp [State.mark, ChangeSet.has, ChangeSet.put]

/-- A permit rewritten with its watch_always changes the reading of no permit's. -/
theorem watchAlways_setPermit {s : State} {p : PermitIx} {m y : Permit} (hm : s.permit p = some m)
    (hw : y.watchAlways = m.watchAlways) (q : PermitIx) :
    (s.setPermit p (some y)).watchAlways q = s.watchAlways q := by
  unfold State.watchAlways
  rw [permit_setPermit]
  split
  · next e => rw [← e, hm, Option.any_some, Option.any_some, hw]
  · rfl

/-- A change of a permit that the record does not name, or of its other fields than watch_always, evaluates no watch. -/
theorem not_watchTriggered_of_watchAlways {s u : State} {x : Occupant} (hd : u.decision = s.decision)
    (hl : u.lists = s.lists) (ho : u.occupants = s.occupants)
    (hw : u.watchAlways x.permit = s.watchAlways x.permit) : State.watchTriggered s u x = false := by
  refine watchTriggered_of_same s u x hd hl ?_ hw
  unfold State.insideSlots State.list State.occupant
  rw [hl, ho]

end Sys2Proof.Machine

/-! PROOFS. The requests on the permit table (R6 to R12) and the PIN (R14, R15): O10, O11, O12, O13, O14. -/

namespace Sys2Proof.Machine

/-! ### FIND PERMIT and READ PERMIT (R6, R7) -/

/-- The lookup finds the one permit that carries the number (R2). -/
theorem lookup_eq_some {s : State} {c : Credential} {p : PermitIx} {x : Permit} (hc : c ≠ 0) (hx : s.permit p = some x)
    (e : x.credential = c) (hu : ∀ q y, s.permit q = some y → y.credential = c → q = p) : s.lookup c = some p := by
  cases h : s.lookup c with
  | none => exact absurd e ((lookup_eq_none.mp h).resolve_left hc p x hx)
  | some q =>
    obtain ⟨_, y, hy, ey⟩ := lookup_some h
    rw [hu q y hy ey]

theorem findPermit_of_lookup {s : State} {c : Credential} (hc : c ≠ 0) : s.findPermit c
    = match (s.lookup c).bind fun p => (s.permit p).map fun x => (p, x) with
      | none => ⟨.notFound, []⟩
      | some (p, x) => .ok (x.foundPayload p) := if_neg hc

/-- Settles O10. -/
theorem findAndReadPermitAnswer : Obligations.FindAndReadPermitAnswer := by
  refine ⟨fun s c hs => ?_, fun s index hs => ?_⟩
  · have answers : OnlyAnswers (.findPermit c) s (s.findPermit c) :=
      onlyAnswers_of_report (answer := fun u => u.findPermit c) hs rfl
    refine ⟨fun hc => ?_, fun hc hn => ?_, fun p x hc hx e hu => ?_⟩
    · rwa [show s.findPermit c = ⟨.badValue, []⟩ from if_pos hc] at answers
    · rwa [findPermit_of_lookup hc, lookup_eq_none.mpr (.inr hn)] at answers
    · rw [findPermit_of_lookup hc, lookup_eq_some hc hx e hu, Option.bind_some, hx] at answers
      exact answers
  · have answers : OnlyAnswers (.readPermit index) s (readRecord index s State.permitAnswer) :=
      onlyAnswers_of_report (answer := fun u => readRecord index u State.permitAnswer) hs rfl
    refine ⟨fun h => ?_, fun p h hp => ?_, fun p x h hx => ?_⟩
    · rwa [readRecord_of_le h] at answers
    · rw [readRecord_of_eq h, State.permitAnswer, hp] at answers
      exact answers
    · rw [readRecord_of_eq h, State.permitAnswer, hx] at answers
      exact answers

/-! ### WRITE PERMIT (R8, R9) -/

theorem byte_of_toNat {b : Byte} {n : Nat} (h : b.toNat = n) : byte n = b := by
  rw [← h]
  exact BitVec.ofNat_toNat 8 b

theorem permitClass?_isSome (b : Byte) : (permitClass? b).isSome = true ↔ b.toNat < 3 := by
  unfold permitClass?
  split
  any_goals simp_all
  omega

/-- A class read from its code is written with it again. -/
theorem permitClass?_code {b : Byte} {c : PermitClass} (h : permitClass? b = some c) : byte c.code = b := by
  unfold permitClass? at h
  split at h
  any_goals cases h
  all_goals exact byte_of_toNat ‹_›

theorem permitHours?_isSome (b : Byte) : (permitHours? b).isSome = true ↔ b.toNat < 2 := by
  unfold permitHours?
  split
  any_goals simp_all
  omega

theorem permitHours?_code {b : Byte} {c : PermitHours} (h : permitHours? b = some c) : byte c.code = b := by
  unfold permitHours? at h
  split at h
  any_goals cases h
  all_goals exact byte_of_toNat ‹_›

theorem writtenState?_isSome (b : Byte) : (writtenState? b).isSome = true ↔ b.toNat < 2 := by
  unfold writtenState?
  split
  any_goals simp_all
  omega

theorem writtenState?_code {b : Byte} {c : PermitState} (h : writtenState? b = some c) : byte c.code = b := by
  unfold writtenState? at h
  split at h
  any_goals cases h
  all_goals exact byte_of_toNat ‹_›

/-- The ranges that R8 check 1 asks of the numbers. -/
theorem inRange_iff (f : PermitFields) : f.inRange = true ↔ f.credential ≠ 0 ∧ f.rooms ≠ 0 ∧ f.flags.toNat < 16
    ∧ (f.flags.getLsbD 0 = true → f.pin.toNat ≤ 9999) ∧ (f.flags.getLsbD 2 = true → f.uses ≠ 0) := by
  have pin : f.pin?.getD 0 ≤ Config.pinMax ↔ (f.flags.getLsbD 0 = true → f.pin.toNat ≤ 9999) := by
    unfold PermitFields.pin? Config.pinMax
    split <;> simp_all
  have uses : f.uses? ≠ some 0 ↔ (f.flags.getLsbD 2 = true → f.uses ≠ 0) := by
    unfold PermitFields.uses?
    split <;> simp_all [← BitVec.toNat_inj]
  simp only [PermitFields.inRange, Bool.and_eq_true, decide_eq_true_eq, pin, uses, and_assoc]

/-- The written fields lie in their ranges exactly if there is a permit to place (R8 check 1). -/
theorem permit?_isSome (f : PermitFields) : f.permit?.isSome = true ↔ f.Writable := by
  have fields : f.permit?.isSome = true ↔ f.inRange = true ∧ (permitClass? f.cls).isSome = true
      ∧ (permitHours? f.hours).isSome = true ∧ (writtenState? f.state).isSome = true := by
    unfold PermitFields.permit?
    cases permitClass? f.cls <;> cases permitHours? f.hours <;> cases writtenState? f.state <;> simp
  rw [fields, inRange_iff, permitClass?_isSome, permitHours?_isSome, writtenState?_isSome]
  constructor
  · rintro ⟨⟨hc, hr, hf, hp, hu⟩, hk, hh, hs⟩
    exact ⟨hc, hr, hk, hh, hs, hf, hp, hu⟩
  · rintro ⟨hc, hr, hk, hh, hs, hf, hp, hu⟩
    exact ⟨⟨hc, hr, hf, hp, hu⟩, hk, hh, hs⟩

/-- The permit that a WRITE PERMIT places, field by field (R9). -/
theorem permit?_fields {f : PermitFields} {x : Permit} (h : f.permit? = some x) :
    x.credential = f.credential ∧ x.holder = f.holder ∧ x.rooms = f.rooms
      ∧ byte x.cls.code = f.cls ∧ byte x.hours.code = f.hours ∧ byte x.state.code = f.state
      ∧ x.pin = (if f.flags.getLsbD 0 then some f.pin.toNat else none)
      ∧ x.expiry = (if f.flags.getLsbD 1 then some f.expiry.toNat else none)
      ∧ x.uses = (if f.flags.getLsbD 2 then some f.uses.toNat else none)
      ∧ x.watchAlways = f.flags.getLsbD 3 ∧ x.pinFailures = 0 ∧ x.occupant = none := by
  unfold PermitFields.permit? at h
  split at h
  · split at h
    · next hc hh hs =>
      cases h
      exact ⟨rfl, rfl, rfl, permitClass?_code hc, permitHours?_code hh, writtenState?_code hs, rfl, rfl, rfl, rfl, rfl,
        rfl⟩
    · cases h
  · cases h

section
variable {s : State} {f : PermitFields} {p : PermitIx}

theorem writePermitAt_badValue (h : ¬ f.Writable) : s.writePermitAt f p = (⟨.badValue, []⟩, s) := by
  rw [← permit?_isSome, Option.not_isSome_iff_eq_none] at h
  simp only [State.writePermitAt, h]

theorem writePermitAt_inUse (h : f.Writable) (hl : s.linkedAt p = true) :
    s.writePermitAt f p = (⟨.refused, [0x01]⟩, s) := by
  obtain ⟨x, hx⟩ := Option.isSome_iff_exists.mp ((permit?_isSome f).mpr h)
  simp only [State.writePermitAt, hx, hl, if_true]
  rfl

theorem writePermitAt_duplicate (h : f.Writable) (hl : s.linkedAt p = false)
    (hd : s.duplicates p f.credential = true) : s.writePermitAt f p = (⟨.refused, [0x02]⟩, s) := by
  obtain ⟨x, hx⟩ := Option.isSome_iff_exists.mp ((permit?_isSome f).mpr h)
  obtain ⟨hc, _⟩ := permit?_fields hx
  simp only [State.writePermitAt, hx, hl, hc, hd, if_true, Bool.false_eq_true, if_false]
  rfl

theorem writePermitAt_taken {x : Permit} (hx : f.permit? = some x) (hl : s.linkedAt p = false)
    (hd : s.duplicates p f.credential = false) :
    s.writePermitAt f p = (.ok, ((s.setPermit p (some x)).dropPairsOf p).mark (.permit p)) := by
  obtain ⟨hc, _⟩ := permit?_fields hx
  simp only [State.writePermitAt, hx, hl, hc, hd, Bool.false_eq_true, if_false]

end

/-- A permit's change at one position evaluates no watch where no record names it. -/
theorem not_watchTriggered_of_unnamed {s u : State} {p : PermitIx} (hd : u.decision = s.decision)
    (hl : u.lists = s.lists) (ho : u.occupants = s.occupants) (hp : ∀ q, q ≠ p → u.permit q = s.permit q)
    (hn : ∀ o x, s.occupant o = some x → x.permit ≠ p) (o : Slot) (x : Occupant) (hx : u.occupant o = some x) :
    State.watchTriggered s u x = false := by
  refine not_watchTriggered_of_watchAlways hd hl ho ?_
  unfold State.watchAlways
  rw [hp x.permit (hn o x ((congrArg (Table.get · o) ho).symm.trans hx))]

/-- Settles O11. -/
theorem writePermitChecksAndReplaces : Obligations.WritePermitChecksAndReplaces := by
  refine ⟨fun s index f hs => ⟨?_, fun p hi hf => ⟨?_, ?_⟩⟩, fun s index f p hs hi hf hl hd hn => ?_⟩
  · intro h
    refine onlyAnswers_of_serve hs rfl ?_
    by_cases hi : 512 ≤ index.toNat
    · exact onRecord_of_le hi s _
    · rw [onRecord_of_eq (i := ⟨index.toNat, Nat.not_le.mp hi⟩) rfl]
      exact writePermitAt_badValue (h.resolve_left hi)
  · rintro ⟨x, hx, hl⟩
    refine onlyAnswers_of_serve hs rfl ((onRecord_of_eq hi s _).trans (writePermitAt_inUse hf ?_))
    rw [State.linkedAt, hx]
    exact hl
  · rintro hl ⟨q, x, hq, hx, hc⟩
    refine onlyAnswers_of_serve hs rfl
      ((onRecord_of_eq hi s _).trans (writePermitAt_duplicate hf (linkedAt_eq_false.mpr hl) ?_))
    refine Bool.not_eq_false _ |>.mp fun h => ?_
    exact (duplicates_eq_false hf.credential).mp h q x hq hx hc
  · obtain ⟨x, hx⟩ := Option.isSome_iff_exists.mp ((permit?_isSome f).mpr hf)
    have act := writePermitAt_taken hx (linkedAt_eq_false.mpr hl) ((duplicates_eq_false hf.credential).mpr hd)
    have permit : ∀ q, (((s.setPermit p (some x)).dropPairsOf p).mark (.permit p)).permit q
        = if p = q then some x else s.permit q := fun q => permit_setPermit s p q (some x)
    have other : ∀ q, q ≠ p → (((s.setPermit p (some x)).dropPairsOf p).mark (.permit p)).permit q = s.permit q :=
      fun q hq => (permit q).trans (if_neg fun e => hq e.symm)
    refine takes_of_quiet hs rfl ((onRecord_of_eq hi s _).trans act) ⟨hs.noRaise, rfl, fun _ => rfl⟩ ?_
      (.inr (not_watchTriggered_of_unnamed rfl rfl rfl other hn))
      ⟨⟨x, (permit p).trans (if_pos rfl), permit?_fields hx⟩, other, pair_dropPairsOf (s.setPermit p (some x)) p, ?_⟩
    · exact (((setPermit_only s p _).widen rfl).trans ((dropPairsOf_only _ p).widen rfl)).trans ((mark_only _ _).widen rfl)
    · exact markPass_has (mark_has ((s.setPermit p (some x)).dropPairsOf p) (.permit p))

/-! ### AMEND PERMIT (R10, R11) -/

/-- What a selector and a value make of a field (R11, 11). -/
theorem replacement?_apply {sel : Byte} {v low high : Nat} {r : Replacement} (h : replacement? sel v low high = some r)
    (old : Option Nat) : r.apply old = if sel = 0 then old else if sel = 1 then none else some v := by
  unfold replacement? at h
  have code : ∀ n : Byte, sel.toNat = n.toNat ↔ sel = n := fun n => BitVec.toNat_inj
  split at h
  · next e =>
    cases h
    rw [if_pos ((code 0).mp e)]
    rfl
  · next e =>
    cases h
    rw [if_neg fun k => by simp [k] at e, if_pos ((code 1).mp e)]
    rfl
  · next e =>
    split at h
    · cases h
      rw [if_neg fun k => by simp [k] at e, if_neg fun k => by simp [k] at e]
      rfl
    · cases h
  · cases h

/-- The field is kept exactly with selector 0 (11). -/
theorem replacement?_keep {sel : Byte} {v low high : Nat} {r : Replacement} (h : replacement? sel v low high = some r) :
    r = .keep ↔ sel = 0 := by
  unfold replacement? at h
  split at h
  · next e =>
    cases h
    exact iff_of_true rfl (BitVec.eq_of_toNat_eq e)
  · next e =>
    cases h
    exact iff_of_false (by simp) fun k => by simp [k] at e
  · next e =>
    split at h
    · cases h
      exact iff_of_false (by simp) fun k => by simp [k] at e
    · cases h
  · cases h

/-- A selector makes a replacement: to keep the field, to make it absent, or a value in its range (11). -/
theorem replacement?_isSome (sel : Byte) (v low high : Nat) : (replacement? sel v low high).isSome = true
    ↔ sel.toNat < 2 ∨ (sel = 2 ∧ low ≤ v ∧ v ≤ high) := by
  have two : sel = 2 ↔ sel.toNat = 2 := BitVec.toNat_inj.symm
  rw [two]
  unfold replacement?
  split
  · next e => simp [e]
  · next e => simp [e]
  · next e =>
    split
    · next h => simp [e, h]
    · next h => simp [e, h]
  · next h0 h1 h2 =>
    replace h0 : ¬ sel.toNat = 0 := h0
    replace h1 : ¬ sel.toNat = 1 := h1
    replace h2 : ¬ sel.toNat = 2 := h2
    simp only [Option.isSome_none, Bool.false_eq_true, false_iff]
    omega

/-- The masks and replacements are accepted exactly if they are consistent (R10 check 3). -/
theorem amended?_isSome (a : AmendFields) (x : Permit) : (a.amended? x).isSome = true ↔ a.Consistent x := by
  have parts : (a.amended? x).isSome = true ↔ a.masksGood x = true
      ∧ (replacement? a.usesSel a.uses.toNat 1 255).isSome = true
      ∧ (replacement? a.expirySel a.expiry.toNat 0 Config.minuteMax).isSome = true
      ∧ (replacement? a.pinSel a.pin.toNat 0 Config.pinMax).isSome = true := by
    unfold AmendFields.amended?
    cases replacement? a.usesSel a.uses.toNat 1 255 <;> cases replacement? a.expirySel a.expiry.toNat 0 Config.minuteMax
      <;> cases replacement? a.pinSel a.pin.toNat 0 Config.pinMax <;> simp
  have uses : 1 ≤ a.uses.toNat ∧ a.uses.toNat ≤ 255 ↔ a.uses ≠ 0 := by
    have h : a.uses = 0 ↔ a.uses.toNat = 0 := BitVec.toNat_inj.symm
    have := a.uses.isLt
    rw [ne_eq, h]
    omega
  have expiry : a.expirySel.toNat < 2 ∨ (a.expirySel = 2 ∧ a.expiry.toNat ≤ Config.minuteMax)
      ↔ a.expirySel.toNat < 3 := by
    have h : a.expirySel = 2 ↔ a.expirySel.toNat = 2 := BitVec.toNat_inj.symm
    have := a.expiry.isLt
    rw [h, Config.minuteMax]
    omega
  simp only [parts, replacement?_isSome, uses, expiry, Nat.zero_le, true_and, Config.pinMax, AmendFields.masksGood,
    Bool.and_eq_true, decide_eq_true_eq]
  constructor
  · rintro ⟨⟨⟨⟨hf, hr⟩, hk⟩, hs⟩, hu, he, hp⟩
    exact ⟨hf, hk, hr, hs, hu, he, hp⟩
  · rintro ⟨hf, hk, hr, hs, hu, he, hp⟩
    exact ⟨⟨⟨⟨hf, hr⟩, hk⟩, hs⟩, hu, he, hp⟩

theorem amended?_some {a : AmendFields} {x y : Permit} (h : a.amended? x = some y) :
    ∃ u e q, replacement? a.usesSel a.uses.toNat 1 255 = some u
      ∧ replacement? a.expirySel a.expiry.toNat 0 Config.minuteMax = some e
      ∧ replacement? a.pinSel a.pin.toNat 0 Config.pinMax = some q ∧ y = a.apply x u e q := by
  unfold AmendFields.amended? at h
  split at h
  · split at h
    · next hu he hq => exact ⟨_, _, _, hu, he, hq, (Option.some.inj h).symm⟩
    · cases h
  · cases h

/-- A flag under the two masks (R11). -/
theorem amendFlag_eq (a b : Byte) (n : Nat) (old : Bool) :
    amendFlag a b n old = if a.getLsbD n then true else if b.getLsbD n then false else old := by
  unfold amendFlag
  cases a.getLsbD n <;> cases b.getLsbD n <;> simp

/-- The state under the SUSPEND flag (R11), which is not given for a RETIRING permit. -/
theorem amendState_eq {a : AmendFields} {old : PermitState}
    (h : ¬ (old = .retiring ∧ (a.flagSet.getLsbD 0 || a.flagClear.getLsbD 0) = true)) :
    a.state old = if a.flagSet.getLsbD 0 then .suspended else if a.flagClear.getLsbD 0 then .active else old := by
  cases old with
  | retiring =>
    obtain ⟨h1, h2⟩ : a.flagSet.getLsbD 0 = false ∧ a.flagClear.getLsbD 0 = false := by simpa using h
    simp only [AmendFields.state, h1, h2, Bool.false_eq_true, if_false]
  | active | suspended => rfl

theorem amendHours_eq (a b : Byte) (old : PermitHours) :
    (if amendFlag a b 1 (decide (old = .anyHours)) then PermitHours.anyHours else .dayOnly)
      = if a.getLsbD 1 then .anyHours else if b.getLsbD 1 then .dayOnly else old := by
  rw [amendFlag_eq]
  cases a.getLsbD 1 <;> cases b.getLsbD 1 <;> cases old <;> simp

/-- The amended permit, field by field (R11). -/
theorem amended?_fields {a : AmendFields} {x y : Permit} (h : a.amended? x = some y)
    (hr : ¬ (x.state = .retiring ∧ (a.flagSet.getLsbD 0 || a.flagClear.getLsbD 0) = true)) :
    y.credential = x.credential ∧ y.holder = x.holder ∧ y.cls = x.cls ∧ y.occupant = x.occupant
      ∧ y.rooms = (x.rooms ||| a.roomSet) &&& ~~~a.roomClear
      ∧ (y.state = if a.flagSet.getLsbD 0 then .suspended else if a.flagClear.getLsbD 0 then .active else x.state)
      ∧ (y.hours = if a.flagSet.getLsbD 1 then .anyHours else if a.flagClear.getLsbD 1 then .dayOnly else x.hours)
      ∧ (y.watchAlways
          = if a.flagSet.getLsbD 2 then true else if a.flagClear.getLsbD 2 then false else x.watchAlways)
      ∧ (y.uses = if a.usesSel = 0 then x.uses else if a.usesSel = 1 then none else some a.uses.toNat)
      ∧ (y.expiry = if a.expirySel = 0 then x.expiry else if a.expirySel = 1 then none else some a.expiry.toNat)
      ∧ (y.pin = if a.pinSel = 0 then x.pin else if a.pinSel = 1 then none else some a.pin.toNat)
      ∧ (y.pinFailures = if a.flagClear.getLsbD 0 = true ∨ a.pinSel ≠ 0 then 0 else x.pinFailures) := by
  obtain ⟨u, e, q, hu, he, hq, rfl⟩ := amended?_some h
  refine ⟨rfl, rfl, rfl, rfl, rfl, amendState_eq hr, amendHours_eq _ _ _, amendFlag_eq _ _ _ _,
    replacement?_apply hu _, replacement?_apply he _, replacement?_apply hq _, ?_⟩
  exact ite_congr (propext (or_congr_right (not_congr (replacement?_keep hq)))) (fun _ => rfl) (fun _ => rfl)

section
variable {s : State} {a : AmendFields} {p : PermitIx} {x : Permit}

theorem amendPermitAt_notFound (hp : s.permit p = none) : s.amendPermitAt a p = (⟨.notFound, []⟩, s) := by
  simp only [State.amendPermitAt, hp]

theorem amendPermitAt_badValue (hx : s.permit p = some x) (h : ¬ a.Consistent x) :
    s.amendPermitAt a p = (⟨.badValue, []⟩, s) := by
  rw [← amended?_isSome, Option.not_isSome_iff_eq_none] at h
  simp only [State.amendPermitAt, hx, h]

theorem amendPermitAt_wrongState (hx : s.permit p = some x) (h : a.Consistent x) (hr : x.state = .retiring)
    (hs : (a.flagSet.getLsbD 0 || a.flagClear.getLsbD 0) = true) :
    s.amendPermitAt a p = (⟨.refused, [0x03]⟩, s) := by
  obtain ⟨y, hy⟩ := Option.isSome_iff_exists.mp ((amended?_isSome a x).mpr h)
  unfold State.amendPermitAt
  rw [hx]
  dsimp only
  rw [hy]
  exact if_pos ⟨hr, hs⟩

theorem amendPermitAt_taken {y : Permit} (hx : s.permit p = some x) (hy : a.amended? x = some y)
    (h : ¬ (x.state = .retiring ∧ (a.flagSet.getLsbD 0 || a.flagClear.getLsbD 0) = true)) :
    s.amendPermitAt a p = (.ok, s.setPermit p (some y)) := by
  unfold State.amendPermitAt
  rw [hx]
  dsimp only
  rw [hy]
  exact if_neg h

end

/-- A permit rewritten is quiet: no list and no condition of a hold reason reads it. -/
theorem setPermit_quiet {s : State} (hs : s.handedRaises = []) (p : PermitIx) (x : Option Permit) :
    QuietChange s (s.setPermit p x) := ⟨hs, rfl, fun _ => rfl⟩

/-- Settles O12. -/
theorem amendPermitChecksAndApplies : Obligations.AmendPermitChecksAndApplies := by
  refine ⟨fun s index a hs => ⟨fun h => onlyAnswers_of_serve hs rfl (onRecord_of_le h s _), fun p hi => ⟨fun hp => ?_,
    fun x hx => ⟨fun h => ?_, fun h hr hn => ?_⟩⟩⟩, fun s index a p x hs hi hx hc hr => ?_⟩
  · exact onlyAnswers_of_serve hs rfl ((onRecord_of_eq hi s _).trans (amendPermitAt_notFound hp))
  · exact onlyAnswers_of_serve hs rfl ((onRecord_of_eq hi s _).trans (amendPermitAt_badValue hx h))
  · exact onlyAnswers_of_serve hs rfl ((onRecord_of_eq hi s _).trans (amendPermitAt_wrongState hx h hr hn))
  · obtain ⟨y, hy⟩ := Option.isSome_iff_exists.mp ((amended?_isSome a x).mpr hc)
    have permit : ∀ q, (s.setPermit p (some y)).permit q = if p = q then some y else s.permit q :=
      fun q => permit_setPermit s p q (some y)
    -- a record whose permit keeps watch_always keeps its watch
    have watch : ∀ o, (∀ z, s.occupant o = some z →
        (s.setPermit p (some y)).watchAlways z.permit = s.watchAlways z.permit) →
        (State.markPass s (State.watchPass s ((s.setPermit p (some y)).answering .ok))).watch o = s.watch o :=
      fun o h => watchPass_watch (old := s) (s := (s.setPermit p (some y)).answering .ok) fun z hz =>
        not_watchTriggered_of_watchAlways rfl rfl rfl (h z hz)
    obtain ⟨hcr, hho, hcl, hoc, hro, hst, hhr, hwa, hus, hex, hpi, hpf⟩ := amended?_fields hy hr
    refine takes_of_quiet hs rfl ((onRecord_of_eq hi s _).trans (amendPermitAt_taken hx hy hr))
      (setPermit_quiet hs.noRaise p _) ((setPermit_only s p _).widen rfl) (.inl (by simp))
      ⟨⟨y, (permit p).trans (if_pos rfl), hcr, hho, hcl, hoc, hro, hst, hhr, hwa, hus, hex, hpi, hpf, fun hw o => ?_⟩,
        fun q hq => (permit q).trans (if_neg fun e => hq e.symm), fun o z hz hp => watch o fun z' hz' => ?_⟩
    · exact watch o fun z _ => watchAlways_setPermit hx hw z.permit
    · cases hz.symm.trans hz'
      unfold State.watchAlways
      rw [permit, if_neg fun e => hp e.symm]

/-! ### RETIRE PERMIT (R5, R12) -/

/-- Settles O13. -/
theorem retirePermitRemovesOrRetires : Obligations.RetirePermitRemovesOrRetires := by
  intro s index hs
  have at_record : ∀ {p : PermitIx}, index.toNat = p.val →
      onRecord index s State.retirePermitAt = s.retirePermitAt p := fun hi => onRecord_of_eq hi s _
  have retire : ∀ {p : PermitIx} {x : Permit}, s.permit p = some x →
      s.retirePermitAt p = (.ok, if x.state = .retiring then s else s.retireOrRemove p x) := fun hx => by
    simp only [State.retirePermitAt, hx]
  refine ⟨fun h => onlyAnswers_of_serve hs rfl (onRecord_of_le h s _), fun p hi hp => ?_, fun p x hi hx hr => ?_,
    fun p x hi hx hr ho => ?_, fun p x hi hx hr ho hn => ?_⟩
  · refine onlyAnswers_of_serve hs rfl ((at_record hi).trans ?_)
    simp only [State.retirePermitAt, hp]
  · refine onlyAnswers_of_serve hs rfl ((at_record hi).trans ?_)
    rw [retire hx, if_pos hr]
    rfl
  · have act : s.retirePermitAt p = (.ok, s.setPermit p (some { x with state := .retiring })) := by
      rw [retire hx, if_neg hr, State.retireOrRemove, if_neg (by simpa [Option.isSome_iff_ne_none] using ho)]
    have permit : ∀ q, (s.setPermit p (some { x with state := .retiring })).permit q
        = if p = q then some { x with state := .retiring } else s.permit q := fun q => permit_setPermit s p q _
    exact takes_of_quiet hs rfl ((at_record hi).trans act) (setPermit_quiet hs.noRaise p _)
      ((setPermit_only s p _).widen rfl)
      (.inr fun o z _ => not_watchTriggered_of_watchAlways rfl rfl rfl
        (watchAlways_setPermit (y := { x with state := .retiring }) hx rfl z.permit))
      ⟨(permit p).trans (if_pos rfl), fun q hq => (permit q).trans (if_neg fun e => hq e.symm)⟩
  · have act : s.retirePermitAt p = (.ok, s.removePermit p) := by
      rw [retire hx, if_neg hr, State.retireOrRemove, if_pos (by rw [ho]; rfl)]
    have permit : ∀ q, (s.removePermit p).permit q = if p = q then none else s.permit q :=
      fun q => permit_setPermit s p q none
    have other : ∀ q, q ≠ p → (s.removePermit p).permit q = s.permit q := fun q hq =>
      (permit q).trans (if_neg fun e => hq e.symm)
    exact takes_of_quiet hs rfl ((at_record hi).trans act) ⟨hs.noRaise, rfl, fun _ => rfl⟩
      ((removePermit_only s p).widen rfl) (.inr (not_watchTriggered_of_unnamed rfl rfl rfl other hn))
      ⟨(permit p).trans (if_pos rfl), other, pair_dropPairsOf (s.setPermit p none) p⟩

/-! ### The PIN (R14, R15) -/

/-- The duress PIN is the stored one with its last digit raised by one (R14). -/
theorem isDuressPin_iff (pin : Nat) (v : BitVec 16) : IsDuressPin pin v ↔ v.toNat = duressPin pin := by
  unfold IsDuressPin duressPin
  omega

theorem duressPin_ne (pin : Nat) : duressPin pin ≠ pin := by
  unfold duressPin
  omega

theorem comparePin_pass {pin : Nat} {v : BitVec 16} (h : v.toNat = pin) : comparePin pin (some v) = .pass := if_pos h

theorem comparePin_duress {pin : Nat} {v : BitVec 16} (h : IsDuressPin pin v) : comparePin pin (some v) = .duress := by
  have h := (isDuressPin_iff pin v).mp h
  exact (if_neg fun e => duressPin_ne pin (h.symm.trans e)).trans (if_pos h)

theorem comparePin_wrong {pin : Nat} {v : BitVec 16} (h : v.toNat ≠ pin) (hd : ¬ IsDuressPin pin v) :
    comparePin pin (some v) = .wrong :=
  (if_neg h).trans (if_neg fun e => hd ((isDuressPin_iff pin v).mpr e))

/-- The first and second wrong PIN in a row (R15). -/
theorem wrongPin_counted {m : Permit} (h : m.pinFailures ≤ 1) :
    m.afterPin .wrong = { m with pinFailures := m.pinFailures + 1 } ∧ m.pinReason (some .wrong) = some .pinWrong := by
  have h : m.pinFailures + 1 < Config.pinLimit := Nat.lt_of_le_of_lt (Nat.add_le_add_right h 1) (by decide)
  exact ⟨if_pos h, if_pos h⟩

/-- The third wrong PIN in a row locks an ACTIVE permit out (R15). -/
theorem wrongPin_locks {m : Permit} (h : 2 ≤ m.pinFailures) (hs : m.state = .active) :
    m.afterPin .wrong = { m with pinFailures := 3, state := .suspended }
      ∧ m.pinReason (some .wrong) = some .pinLocked := by
  have h : ¬ m.pinFailures + 1 < Config.pinLimit := Nat.not_lt.mpr (Nat.add_le_add_right h 1)
  refine ⟨(if_neg h).trans ?_, if_neg h⟩
  rw [if_neg (by simp [hs])]
  rfl

/-- Settles O14. -/
theorem pinComparedAndCounted : Obligations.PinComparedAndCounted :=
  ⟨fun _ _ => ⟨comparePin_pass, fun h k => comparePin_duress ⟨h, k⟩, comparePin_wrong, rfl⟩,
    fun _ => ⟨rfl, rfl, rfl, rfl, wrongPin_counted, fun h => wrongPin_locks (Nat.le_of_eq h.symm)⟩⟩

end Sys2Proof.Machine

/-! PROOFS. The wall clock's own events (R149, R150): the sweep and the hours decision for a minute, and O42. -/

namespace Sys2Proof.Machine

/-! ### The sweep and the decision for a minute -/

/-- The expiry test of the sweep, with a valid wall clock (R16). -/
theorem expired_iff {s : State} {x : Permit} {w : WallClock} (hw : s.wall = some w) :
    s.expired x = true ↔ ∃ e, x.expiry = some e ∧ e ≤ w.minute := by
  unfold State.expired
  rw [hw]
  cases x.expiry <;> simp

/-- What the sweep makes of a permit that is left (R17). -/
theorem swept_left {s : State} {x : Permit} {w : WallClock} (hw : s.wall = some w)
    (h : (∀ e, x.expiry = some e → w.minute < e) ∨ x.state = .retiring) : s.swept x = some x := by
  refine if_neg ?_
  rintro ⟨he, hs⟩
  obtain ⟨e, hx, hle⟩ := (expired_iff hw).mp he
  exact h.elim (fun h => Nat.not_lt.mpr hle (h e hx)) hs

/-- What the sweep makes of an expired permit that is not RETIRING (R17). -/
theorem swept_expired {s : State} {x : Permit} {w : WallClock} {e : Nat} (hw : s.wall = some w)
    (hx : x.expiry = some e) (he : e ≤ w.minute) (hs : x.state ≠ .retiring) :
    s.swept x = if x.occupant.isNone then none else some { x with state := .retiring } :=
  if_pos ⟨(expired_iff hw).mpr ⟨e, hx, he⟩, hs⟩

/-- The state with the wall clock set, swept, and the hours decided: what a minute boundary and SET CLOCK make of it. -/
def State.atMinute (s : State) (w : WallClock) : State := { s with wall := some w }.sweep.decideHours

theorem atMinute_permit (s : State) (w : WallClock) (p : PermitIx) :
    (s.atMinute w).permit p = (s.permit p).bind { s with wall := some w }.swept :=
  sweep_permit { s with wall := some w } p

theorem atMinute_pair {s : State} {w : WallClock} {r : Room} {h : PendingPair} (hh : (s.atMinute w).pair r = some h) :
    ((s.atMinute w).permit h.permit).isSome = true :=
  (Option.filter_eq_some_iff.mp ((sweep_pair { s with wall := some w } r).symm.trans hh)).2

/-- Any state with the permits and the pairs of the swept one shows the sweep for the minute (R17, R5). -/
theorem sweptFor_atMinute {s t : State} {w : WallClock} (hp : t.permits = (s.atMinute w).permits)
    (hq : t.pairs = (s.atMinute w).pairs) : s.SweptFor w.minute t := by
  have permit : ∀ p, t.permit p = (s.permit p).bind { s with wall := some w }.swept := fun p =>
    (congrArg (Table.get · p) hp).trans (atMinute_permit s w p)
  have clock : ({ s with wall := some w } : State).wall = some w := rfl
  intro p
  refine ⟨fun h => by rw [permit, h]; rfl, fun x hx => ⟨fun h => ?_, fun e he hle hs => ⟨fun ho => ?_, fun ho => ?_⟩⟩⟩
  · rw [permit, hx, Option.bind_some, swept_left clock h]
  · have gone : t.permit p = none := by
      rw [permit, hx, Option.bind_some, swept_expired clock he hle hs, if_pos (by rw [ho]; rfl)]
    refine ⟨gone, fun r h hh hne => ?_⟩
    have stays := atMinute_pair ((congrArg (Table.get · r) hq).symm.trans hh)
    have e : (s.atMinute w).permit p = none := (congrArg (Table.get · p) hp).symm.trans gone
    rw [hne, e] at stays
    cases stays
  · rw [permit, hx, Option.bind_some, swept_expired clock he hle hs,
      if_neg (by simpa [Option.isSome_iff_ne_none] using ho)]

/-- The hours decision for a minute (R155). -/
theorem atMinute_decision (s : State) (w : WallClock) : (s.atMinute w).decision = hoursAt s.settings w.minute := rfl

theorem atMinute_quiet {s : State} (hs : s.handedRaises = []) (w : WallClock) : QuietChange s (s.atMinute w) :=
  ⟨hs, rfl, fun _ => rfl⟩

theorem atMinute_only (s : State) (w : WallClock) :
    OnlyChanges [.wall, .permits, .pairs, .decision] s (s.atMinute w) := by
  intro q hq; cases q <;> first | rfl | exact fun _ => rfl | exact absurd (by decide) hq

/-! ### The end of the range (R149) -/

/-- The state with the wall clock invalid and the hours decided: what the boundary after the last minute makes of it. -/
def State.clockLost (s : State) : State := { s with wall := none }.decideHours

theorem clockLost_quiet {s : State} (hs : s.handedRaises = []) : QuietChange s s.clockLost := ⟨hs, rfl, fun _ => rfl⟩

theorem clockLost_only (s : State) : OnlyChanges [.wall, .decision] s s.clockLost := by
  intro q hq; cases q <;> first | rfl | exact fun _ => rfl | exact absurd (by decide) hq

/-! ### MINUTE_BOUNDARY and SET CLOCK -/

/-- What a minute boundary does to the records before the event ends (R149; log 4). -/
def State.atBoundary (s : State) : State :=
  match s.wall with
  | some w => if 60 ≤ w.seconds then s.minuteBoundary w else s
  | none => s

theorem exec_minuteBoundary (s : State) : exec .minuteBoundary s = .next (s.event State.atBoundary) := rfl

section
variable {s : State} {w : WallClock} (hw : s.wall = some w)
include hw

theorem atBoundary_of_early (h : w.seconds < 60) : s.atBoundary = s := by
  unfold State.atBoundary
  rw [hw]
  exact if_neg (Nat.not_le.mpr h)

theorem atBoundary_of_due (h : 60 ≤ w.seconds) (hm : w.minute < 16777215) :
    s.atBoundary = s.atMinute ⟨w.minute + 1, w.seconds - 60⟩ := by
  unfold State.atBoundary
  rw [hw]
  exact (if_pos h).trans (if_pos hm)

theorem atBoundary_of_last (h : 60 ≤ w.seconds) (hm : 16777215 ≤ w.minute) : s.atBoundary = s.clockLost := by
  unfold State.atBoundary
  rw [hw]
  exact (if_pos h).trans (if_neg (Nat.not_lt.mpr hm))

end

theorem setClock_badValue {s : State} {m n : Nat} (h : 59 < n) : s.setClock m n = (⟨.badValue, []⟩, s) := if_pos h

theorem setClock_taken {s : State} {m n : Nat} (h : n ≤ 59) :
    s.setClock m n = (.ok, (s.atMinute ⟨m, n⟩).mark .clock) := if_neg (Nat.not_lt.mpr h)

/-- Settles O42. -/
theorem wallClockCarriesAndIsSet : Obligations.WallClockCarriesAndIsSet := by
  refine ⟨fun s w hs hr hw => ⟨fun h => ?_, fun h hm => ?_, fun h hm => ?_⟩, fun s m n hs => ⟨fun h => ?_, fun h => ?_⟩⟩
  · rw [exec_minuteBoundary, event_of_no_change s _ hr (atBoundary_of_early hw h)]
  · exact happens_of_quiet hs hr (exec_minuteBoundary s) (atBoundary_of_due hw h hm) (atMinute_quiet hr _)
      ((atMinute_only s _).widen rfl) (.inl (by simp)) ⟨rfl, sweptFor_atMinute rfl rfl, atMinute_decision s _⟩
  · exact happens_of_quiet hs hr (exec_minuteBoundary s) (atBoundary_of_last hw h hm) (clockLost_quiet hr)
      ((clockLost_only s).widen rfl) (.inl (by simp)) ⟨rfl, rfl⟩
  · exact onlyAnswers_of_serve hs rfl (setClock_badValue h)
  · have quiet := atMinute_quiet hs.noRaise ⟨m.toNat, n.toNat⟩
    refine takes_of_quiet hs rfl (setClock_taken h) ⟨quiet.noRaise, quiet.lists, quiet.conditions⟩
      (((atMinute_only s _).widen rfl).trans ((mark_only _ _).widen rfl)) (.inl (by simp))
      ⟨rfl, sweptFor_atMinute rfl rfl, atMinute_decision s _, ?_⟩
    exact markPass_has (i := .clock) (mark_has (s.atMinute ⟨m.toNat, n.toNat⟩) .clock)

end Sys2Proof.Machine

/-! PROOFS. A presentation decided (R27): what the event keeps around the decision, which raises it takes, and how a denial is
written. -/

namespace Sys2Proof.Machine

/-! ### A raise taken (R126, R127) -/

/-- A raise taken between two states: a RAISED record with its key names its permit, or the raise was lost. -/
def State.TakesRaise (s : State) (r : AlarmRaise) (t : State) : Prop :=
  (∃ i a, t.alarm i = some a ∧ a.key = r.key ∧ a.permit = r.permit ∧ a.acknowledged = false
      ∧ a.cause = r.key.kind.raisedCause)
    ∨ (t.overflow = true ∧ t.lostCount = min (s.lostCount + 1) 255)

theorem alarm_setAlarm_self (s : State) (i : AlarmSlot) (a : Option Alarm) : (s.setAlarm i a).alarm i = a :=
  Table.get_set_self _ _ _

theorem placedAlarm_taken {s u t : State} {r : AlarmRaise} {i : AlarmSlot}
    (h : t.alarm i = some (u.placedAlarm r)) : s.TakesRaise r t := .inl ⟨i, _, h, rfl, rfl, rfl, rfl⟩

theorem alarmRemoved_alarms (s : State) (a : Alarm) : (s.alarmRemoved a).alarms = s.alarms :=
  alarmRemoved_only s a .alarms (by decide)

theorem takeRaise_taken (s : State) (r : AlarmRaise) : s.TakesRaise r (s.takeRaise r).1 := by
  unfold State.takeRaise
  split
  · next i hi =>
    obtain ⟨a, ha, hk⟩ := (Option.any_eq_true _ _).mp (Table.findIx?_some hi)
    have hk : a.key = r.key := of_decide_eq_true hk
    refine .inl ⟨i, a.repeated r, ?_, hk, rfl, rfl, congrArg (fun k : AlarmKey => k.kind.raisedCause) hk⟩
    rw [alarm_setAlarm_self, show s.alarm i = some a from ha]
    rfl
  · split
    · exact placedAlarm_taken (alarm_setAlarm_self s _ _)
    · unfold State.replaceOrLose
      split
      · exact .inr ⟨rfl, rfl⟩
      · next i _ =>
        split
        · exact placedAlarm_taken (alarm_setAlarm_self s i _)
        · exact placedAlarm_taken (i := i)
            ((congrArg (Table.get · i) (alarmRemoved_alarms _ _)).trans (alarm_setAlarm_self s i _))

/-- An event that hands one raise takes it. -/
theorem takeRaises_single {s : State} {r : AlarmRaise} (h : s.handedRaises = [r]) : s.TakesRaise r s.takeRaises := by
  have e : s.takeRaises = (({ s with handedRaises := [] } : State).takeRaise r).1 := by
    unfold State.takeRaises
    rw [h]
    rfl
  rw [e]
  exact takeRaise_taken { s with handedRaises := [] } r

/-! ### The station's answer (R89) -/

theorem toHandshake_station (s : State) (t u : StationId) (h : Handshake) : (s.toHandshake t h).station u
    = if t = u then { s.station t with handshake := h } else s.station u := Table.get_set _ _ _ _

theorem toHandshake_note (s : State) (t u : StationId) (h : Handshake) : (s.toHandshake t h).note u
    = if t = u then .clear else s.note u := Table.get_set _ _ _ _

theorem toHandshake_only (s : State) (t : StationId) (h : Handshake) :
    OnlyChanges [.stations, .notes] s (s.toHandshake t h) :=
  ((setStation_only s t _).widen rfl).trans ((setNote_only _ t _).widen rfl)

/-- A handshake is no condition of a hold reason. -/
theorem toHandshake_conditions (s : State) (t : StationId) (h : Handshake) (z : Room) :
    (s.toHandshake t h).conditions z = s.conditions z := by
  have presence : ∀ u, ((s.toHandshake t h).station u).presence = (s.station u).presence := fun u => by
    rw [toHandshake_station]
    split
    · next e => rw [← e]
    · rfl
  have contact : (s.toHandshake t h).inContact z = s.inContact z := by
    have serving : (s.toHandshake t h).serving (.zone z) = s.serving (.zone z) := rfl
    unfold State.inContact
    rw [serving]
    split
    · rw [presence]
    · rfl
  have e : (s.toHandshake t h).conditions z = { s.conditions z with stationLost := !(s.toHandshake t h).inContact z } := rfl
  rw [e, contact]
  rfl

/-- The station answers with the decision, if the decision itself touched no station (R27, R89). -/
theorem answersWith_of_handshake {s v t : State} {st : StationId} {d : Decision} {mark : Bool}
    (hs : v.stations = s.stations) (hn : v.notes = s.notes)
    (ht : t.stations = (v.toHandshake st (.answering d mark)).stations)
    (hm : t.notes = (v.toHandshake st (.answering d mark)).notes) : s.AnswersWith t st d mark := by
  have station : ∀ u, t.station u
      = if st = u then { s.station st with handshake := .answering d mark } else s.station u := by
    intro u
    refine (congrArg (Table.get · u) ht).trans ((toHandshake_station v st u _).trans ?_)
    unfold State.station
    rw [hs]
  have note : ∀ u, t.note u = if st = u then .clear else s.note u := by
    intro u
    refine (congrArg (Table.get · u) hm).trans ((toHandshake_note v st u _).trans ?_)
    unfold State.note
    rw [hn]
  exact ⟨(station st).trans (if_pos rfl), fun u hu => (station u).trans (if_neg fun e => hu e.symm),
    (note st).trans (if_pos rfl), fun u hu => (note u).trans (if_neg fun e => hu e.symm)⟩

/-! ### The event around a decision -/

/-- PRESENTATION_DECIDED, where the admission unit holds a presentation and decides it so. -/
theorem exec_presentationDecided {s v : State} {l : LoopNo} {st : StationId} {q : Presentation} {d : Decision}
    (h : s.Holds l st q) (hd : s.decidePresentation (s.entry st).role q = (v, d)) :
    exec (.presentationDecided l) s = .next (State.finish s (v.toHandshake st (.answering d q.mark))) := by
  have e : s.decideLoop l = v.toHandshake st (.answering d q.mark) := by
    unfold State.decideLoop
    rw [h.station]
    dsimp only
    rw [h.handed]
    dsimp only
    rw [hd]
  refine congrArg Host.Outcome.next ?_
  rw [event_of_running s _ h.running, clear_handedRaises s h.noRaise, e]

/-- A decision of a presentation that moves no list, no condition of a hold reason and no station, and changes the parts
listed. -/
structure State.Decides (s : State) (st : StationId) (q : Presentation) (v : State) (d : Decision) (parts : List Part) :
    Prop where
  result : s.decidePresentation (s.entry st).role q = (v, d)
  only : OnlyChanges parts s v
  lists : v.lists = s.lists
  conditions : ∀ z, v.conditions z = s.conditions z
  stations : v.stations = s.stations
  notes : v.notes = s.notes

/-- What stands after the event of a decision that came to the state `v`: the station answers, the records are those of `v`,
and a single raise handed is taken. -/
structure State.DecidedBy (s v : State) (st : StationId) (d : Decision) (mark : Bool) (t : State) : Prop where
  answer : s.AnswersWith t st d mark
  permits : t.permits = v.permits
  pairs : t.pairs = v.pairs
  doors : t.doors = v.doors
  raised : ∀ r, v.handedRaises = [r] → v.TakesRaise r t

/-- The event of such a decision changes, beside what the decision changed, the station with its note, and what the raises
and the watches may change, if there are any. -/
theorem State.Decides.happens {s v : State} {l : LoopNo} {st : StationId} {q : Presentation} {d : Decision}
    {parts qs : List Part} {after : State → Prop} (h : s.Holds l st q) (k : s.Decides st q v d parts)
    (hp : ∀ p ∈ [Part.stations, .notes] ++ parts, p ∈ qs)
    (hw : (∀ p ∈ alarmParts, p ∈ qs)
      ∨ (v.handedRaises = [] ∧ ∀ o x, v.occupant o = some x → State.watchTriggered s v x = false))
    (ha : ∀ t, s.DecidedBy v st d q.mark t → after t) : Happens (.presentationDecided l) s qs after := by
  let w := v.toHandshake st (.answering d q.mark)
  have fin : State.finish s w = State.markPass s (State.watchPass s w.takeRaises) := by
    unfold State.finish
    rw [holdPass_of_conditions s w fun z => (toHandshake_conditions v st _ z).trans (k.conditions z),
      unescortedPass_of_lists s w k.lists]
  have decided : OnlyChanges qs s w := ((k.only.mono fun p hm => List.mem_append_right _ hm).trans
    ((toHandshake_only v st _).mono fun p hm => List.mem_append_left _ hm)).mono hp
  refine ⟨_, exec_presentationDecided h k.result, ?_, ha _ ?_⟩
  · rw [fin]
    rcases hw with hw | ⟨hr, hw⟩
    · exact watched_only (decided.trans ((takeRaises_only w).mono hw)) (.inl (hw .watches (by decide)))
    · rw [takeRaises_of_none w hr]
      exact watched_only decided (.inr hw)
  · refine ⟨answersWith_of_handshake k.stations k.notes (finish_stations s w) (finish_notes s w), finish_permits s w,
      finish_pairs s w, finish_doors s w, fun r hr => ?_⟩
    rw [fin]
    exact takeRaises_single (s := w) hr

/-! ### Denials -/

/-- The state with the permits, the pending pairs and the raises given: what the admission unit changes before a denial. -/
def State.reviewed (s : State) (permits : Table 512 (Option Permit)) (pairs : Table 16 (Option PendingPair))
    (raises : List AlarmRaise) : State := { s with permits := permits, pairs := pairs, handedRaises := raises }

theorem denied_only (s : State) (d : DoorNo) (c : Credential) (x : Reason) :
    OnlyChanges [.doors] s (s.denied d c x).1 :=
  modDoor_only s d fun y => { y with lastDenial := some ⟨x, c⟩ }

/-- A denial is no condition of a hold reason. -/
theorem denied_conditions (s : State) (d : DoorNo) (c : Credential) (x : Reason) (z : Room) :
    (s.denied d c x).1.conditions z = s.conditions z := by
  have contact : ∀ e, (s.denied d c x).1.contactOpen e = s.contactOpen e := fun e => by
    have h : ((s.denied d c x).1.door e).contact = (s.door e).contact := by
      refine (congrArg Door.contact (door_setDoor s d e _)).trans ?_
      split
      · next k => rw [← k]
      · rfl
    unfold State.contactOpen
    rw [h]
  have e : (s.denied d c x).1.conditions z = { s.conditions z with
      doorOpen := (s.denied d c x).1.contactOpen (outerDoor z) || (s.denied d c x).1.contactOpen (innerDoor z) } := rfl
  rw [e, contact, contact]
  rfl

/-- An entry presentation is denied (R27), after permits, pending pairs and raises were written. -/
theorem happens_denied {s v : State} {l : LoopNo} {st : StationId} {q : Presentation} {d : DoorNo} {x : Reason}
    {parts : List Part} {after : State → Prop} (h : s.Holds l st q)
    (hd : s.decidePresentation (s.entry st).role q = v.denied d q.credential x)
    (hv : v = s.reviewed v.permits v.pairs v.handedRaises) (ho : OnlyChanges parts s v)
    (hp : ∀ p ∈ [Part.stations, .notes, .doors], p ∈ parts)
    (hw : (∀ p ∈ alarmParts, p ∈ parts) ∨ (v.handedRaises = [] ∧ ∀ p, v.watchAlways p = s.watchAlways p))
    (ha : ∀ t, s.Denies t st d q x → t.permits = v.permits → t.pairs = v.pairs →
      (∀ r, v.handedRaises = [r] → s.TakesRaise r t) → after t) : Happens (.presentationDecided l) s parts after := by
  obtain ⟨P, Q, R, rfl⟩ : ∃ P Q R, v = s.reviewed P Q R := ⟨_, _, _, hv⟩
  have decides : s.Decides st q ((s.reviewed P Q R).denied d q.credential x).1 (.deny x) parts :=
    { result := hd
      only := ho.trans ((denied_only _ d _ x).mono (by simpa using hp .doors (by simp)))
      lists := rfl
      conditions := denied_conditions (s.reviewed P Q R) d q.credential x
      stations := rfl
      notes := rfl }
  refine decides.happens h (fun p hm => ?_)
    (hw.imp_right fun h => ⟨h.1, fun _ y _ => not_watchTriggered_of_watchAlways rfl rfl rfl (h.2 y.permit)⟩)
    fun t ht => ?_
  · simp only [List.mem_append, List.mem_cons, List.not_mem_nil, or_false] at hm
    rcases hm with (rfl | rfl) | hm
    · exact hp _ (by simp)
    · exact hp _ (by simp)
    · exact hm
  · have door (e : DoorNo) := congrArg (Table.get · e) ht.doors
    exact ha t ⟨ht.answer, (door d).trans (door_setDoor_self s d _),
      fun e he => (door e).trans (door_setDoor_ne s _ fun k => he k.symm)⟩ ht.permits ht.pairs ht.raised

end Sys2Proof.Machine

/-! PROOFS. The checks of the admission unit against the words of the statements (R28 to R32, R38), and the presentations that
unbolt no door: O22. -/

namespace Sys2Proof.Machine

/-! ### Lists of checks -/

/-- A check function answers the reason of the first condition of the list that fails, or none. -/
def Checks (ps : List (Prop × Reason)) (c : Option Reason) : Prop := ∀ x, FirstFailing ps x ↔ c = some x

theorem Checks.nil : Checks [] (firstReason []) := fun x => by simp [FirstFailing, firstReason]

theorem Checks.cons {b : Bool} {P : Prop} {r : Reason} {ps : List (Prop × Reason)} {l : List (Option Reason)}
    (hb : b = true ↔ P) (h : Checks ps (firstReason l)) : Checks ((P, r) :: ps) (firstReason (check b r :: l)) := by
  intro x
  unfold FirstFailing
  rw [← hb, h x]
  cases b <;> simp [check, firstReason, eq_comm]

/-- Check 3 stands for two conditions: a valid clock, and the minute read before the expiry (R16). -/
theorem Checks.expiry {s : State} {m : Permit} {ps : List (Prop × Reason)} {l : List (Option Reason)}
    (h : Checks ps (firstReason l)) :
    Checks ((m.expiry = none ∨ s.wall.isSome = true, .timeUnset)
        :: (∀ e w, m.expiry = some e → s.wall = some w → s.minuteRead w < e, .expired) :: ps)
      (firstReason (s.checkExpiry m :: l)) := by
  intro x
  unfold FirstFailing FirstFailing
  rw [h x]
  unfold State.checkExpiry
  cases m.expiry with
  | none => simp [firstReason]
  | some e =>
    cases s.wall with
    | none => simp [firstReason, eq_comm]
    | some w =>
      dsimp only [expiryMinute_eq]
      by_cases hle : e ≤ s.minuteRead w
      · simp [hle, firstReason, Nat.not_lt.mpr hle, eq_comm]
      · simp [hle, firstReason, Nat.not_le.mp hle]

theorem admits_iff (z : ZoneState) : z.admits = true ↔ z = .normal ∨ z = .isolated := by
  cases z <;> simp [ZoneState.admits]

theorem door_admits_iff (x : Door) : x.admits = true ↔ x.effMode = .normal ∧ ∀ c, x.state ≠ .fault c := by
  unfold Door.admits
  cases x.state <;> simp

theorem door_free_iff (x : Door) : x.free = true ↔ x.grant = none ∧ x.pendingExit = none := by
  simp [Door.free]

theorem secured_iff (s : State) (d : DoorNo) : s.secured d = true ↔ (s.door d).state = .secured := by
  simp [State.secured]

/-! ### Checks 2 to 6 (R28) -/

theorem hours_iff (s : State) (m : Permit) : (decide (s.decision = .day) || (decide (m.hours = .anyHours) && m.pin.isSome))
    = true ↔ s.decision = .day ∨ (m.hours = .anyHours ∧ m.pin.isSome = true) := by
  simp

theorem checks2to6_checks (s : State) (m : Permit) (r : Room) : Checks (s.checksOfPermit r m) (s.checks2to6 m r) :=
  .cons decide_eq_true_iff (.expiry (.cons decide_eq_true_iff (.cons Iff.rfl (.cons (hours_iff s m) .nil))))

theorem checks2to6_eq_none (s : State) (m : Permit) (r : Room) : s.checks2to6 m r = none ↔ s.Entitled r m := by
  simp only [State.checks2to6, firstReason_eq_none, List.forall_mem_cons, check_eq_none, hours_iff, checkExpiry_eq_none,
    decide_eq_true_eq]
  constructor
  · rintro ⟨ha, he, hu, hr, hh, _⟩
    exact ⟨ha, he, hu, hr, hh⟩
  · rintro ⟨ha, he, hu, hr, hh⟩
    exact ⟨ha, he, hu, hr, hh, by simp⟩

/-! ### The pending pair (R37) -/

theorem twoPersonApplies_iff (s : State) (r : Room) : s.twoPersonApplies r = true ↔ s.NeedsPair r := by
  simp [State.twoPersonApplies, State.NeedsPair, and_assoc]

theorem pairStands_iff (s : State) (r : Room) (h : PendingPair) : s.pairStands r h = true ↔ s.PairStands r h := by
  simp only [State.pairStands, State.PairStands, Bool.and_eq_true, twoPersonApplies_iff, Option.any_eq_true,
    Option.isNone_iff_eq_none, checks2to6_eq_none]

/-- The revalidation at the start of a decision is the one that the statements name (R37). -/
theorem revalidated_eq {s u : State} {r : Room} (h : s.Revalidated r u) : u = s.revalidatePair r := by
  obtain ⟨stands, falls⟩ := h
  have e : ∀ x, (s.pair r).filter (fun q => s.pairStands r q) = x → s.revalidatePair r = s.setPair r x := fun x hx => by
    rw [← hx]
    rfl
  have same : s.setPair r (s.pair r) = s := by
    have : s.pairs.set r (s.pairs.get r) = s.pairs := Table.set_get _ _
    unfold State.setPair State.pair
    rw [this]
  cases hq : s.pair r with
  | none => rw [stands (by simp [hq]), e none (by rw [hq]; rfl), ← hq, same]
  | some q =>
    by_cases hs : s.PairStands r q
    · rw [stands fun h hh => by rwa [← Option.some.inj (hq.symm.trans hh)], e (some q) ?_, ← hq, same]
      rw [hq]
      exact Option.filter_some_pos ((pairStands_iff s r q).mpr hs)
    · rw [falls ⟨q, hq, hs⟩, e none ?_]
      rw [hq]
      exact Option.filter_some_neg (Bool.eq_false_iff.mpr fun h => hs ((pairStands_iff s r q).mp h))

/-! ### Checks 8 to 15 (R29 to R31) -/

theorem company_iff (s : State) (r : Room) :
    (((s.pair r).map PendingPair.permit).any fun p => (s.permit p).any fun h => decide (h.cls ≠ .visitor)) = true
      ↔ s.Company r := by
  simp only [Option.any_map, Option.any_eq_true, decide_eq_true_eq, State.Company]
  constructor
  · rintro ⟨h, hh, k, hk, hc⟩
    exact ⟨h, k, hh, hk, hc⟩
  · rintro ⟨h, k, hh, hk, hc⟩
    exact ⟨h, hh, k, hk, hc⟩

theorem escortPasses_iff (s : State) (m : Permit) (r : Room) :
    s.escortPasses m r ((s.pair r).map PendingPair.permit) = true
      ↔ m.cls ≠ .visitor ∨ s.escorted r = true ∨ s.Company r := by
  unfold State.escortPasses
  rw [Bool.or_eq_true, Bool.or_eq_true, decide_eq_true_iff, company_iff, or_assoc]

theorem outside_iff (s : State) (p : PermitIx) (m : Permit) : (m.occupant.isNone && !s.pairHolds p) = true
    ↔ m.occupant = none ∧ ∀ u h, s.pair u = some h → h.permit ≠ p := by
  rw [Bool.and_eq_true, Option.isNone_iff_eq_none, Bool.not_eq_true', pairHolds_eq_false]

theorem entering_eq (s : State) (r : Room) : entering ((s.pair r).map PendingPair.permit).isSome
    = if (s.pair r).isSome then 2 else 1 := by
  rw [Option.isSome_map]
  rfl

/-- Checks 8 to 15 of a presentation, for two where it would complete the pair (R30). -/
theorem checks8to15_checks (s : State) (r : Room) (p : PermitIx) (m : Permit) :
    Checks (s.checksAtDoor r p m (if (s.pair r).isSome then 2 else 1) (s.Company r))
      (s.checks8to15 p m r ((s.pair r).map PendingPair.permit)) := by
  unfold State.checks8to15
  rw [entering_eq]
  exact .cons (admits_iff _) (.cons (door_admits_iff _) (.cons (outside_iff s p m) (.cons decide_eq_true_iff
    (.cons decide_eq_true_iff (.cons (door_free_iff _) (.cons (secured_iff s _) (.cons (escortPasses_iff s m r) .nil)))))))

/-- The permit after check 7 passes checks 8 to 15 as the one before it: they read its class and its link only. -/
theorem checks8to15_setPermit {s : State} {p : PermitIx} {m y : Permit} (hm : s.permit p = some m)
    (hc : y.cls = m.cls) (ho : y.occupant = m.occupant) (r : Room) (held : Option PermitIx) :
    (s.setPermit p (some y)).checks8to15 p y r held = s.checks8to15 p m r held := by
  have cls : ∀ v, ((s.setPermit p (some y)).permit v).map Permit.cls = (s.permit v).map Permit.cls := fun v => by
    rw [permit_setPermit]
    split
    · next e => rw [← e, hm, Option.map_some, Option.map_some, hc]
    · rfl
  have slotClass : (s.setPermit p (some y)).slotClass = s.slotClass := by
    funext o
    exact congrArg (Option.bind (s.occupant o)) (funext fun x => cls x.permit)
  have escorted : (s.setPermit p (some y)).escorted r = s.escorted r := by
    unfold State.escorted
    rw [slotClass]
    rfl
  have visitor : ∀ v, (((s.setPermit p (some y)).permit v).any fun h => decide (h.cls ≠ .visitor))
      = (s.permit v).any fun h => decide (h.cls ≠ .visitor) := fun v => by
    have h := congrArg (Option.any fun k => decide (k ≠ PermitClass.visitor)) (cls v)
    rwa [Option.any_map, Option.any_map] at h
  unfold State.checks8to15 State.escortPasses
  rw [escorted, hc, ho]
  simp only [visitor]
  rfl

/-! ### The PIN at the outer door (R14, R15) -/

theorem pinTaken_eq_of_none {m : Permit} (h : m.pin = none) : m.pinTaken = m := by
  unfold Permit.pinTaken
  rw [h]
  rfl

/-- A PIN that passes check 7 (R14, R15): it gives no reason, clears the failures where one was asked, and is DURESS or not. -/
theorem pinPasses_outcome {m : Permit} {v : Option (BitVec 16)} {duress : Bool} (h : m.PinPasses v duress) :
    m.pinReason (m.pinOutcome v) = none ∧ m.checkedPin v = m.pinTaken
      ∧ decide (m.pinOutcome v = some .duress) = duress := by
  have asked : ∀ {pin}, m.pin = some pin → m.pinTaken = { m with pinFailures := 0 } := fun hp => by
    unfold Permit.pinTaken
    rw [hp]
    rfl
  unfold Permit.checkedPin Permit.pinOutcome
  rcases h with ⟨hp, rfl⟩ | ⟨pin, w, hp, rfl, ⟨hw, rfl⟩ | ⟨hw, rfl⟩⟩
  · rw [hp, pinTaken_eq_of_none hp]
    exact ⟨rfl, rfl, rfl⟩
  · rw [hp, asked hp, Option.map_some, comparePin_pass hw]
    exact ⟨rfl, rfl, rfl⟩
  · rw [hp, asked hp, Option.map_some, comparePin_duress hw]
    exact ⟨rfl, rfl, rfl⟩

theorem pinTaken_keeps (m : Permit) : m.pinTaken.cls = m.cls ∧ m.pinTaken.occupant = m.occupant
    ∧ m.pinTaken.watchAlways = m.watchAlways := by
  unfold Permit.pinTaken
  split <;> exact ⟨rfl, rfl, rfl⟩

/-! ### An outer entry, decision by decision (R28) -/

theorem isOuter_outerDoor (r : Room) : isOuter (outerDoor r) = true := by
  revert r
  decide

theorem isOuter_innerDoor (r : Room) : isOuter (innerDoor r) = false := by
  revert r
  decide

theorem roomOf_outerDoor (r : Room) : roomOf (outerDoor r) = r := by
  revert r
  decide

theorem roomOf_innerDoor (r : Room) : roomOf (innerDoor r) = r := by
  revert r
  decide

theorem decide_outer {s : State} {r : Room} {q : Presentation} {role : Role} (hr : role = .door (outerDoor r))
    (hf : q.face = .entry) : s.decidePresentation role q = s.decideOuter r q := by
  subst hr
  unfold State.decidePresentation
  dsimp only
  rw [hf, isOuter_outerDoor, roomOf_outerDoor]

theorem decide_inner {s : State} {r : Room} {q : Presentation} {role : Role} (hr : role = .door (innerDoor r))
    (hf : q.face = .entry) : s.decidePresentation role q = s.decideInner r q := by
  subst hr
  unfold State.decidePresentation
  dsimp only
  rw [hf, isOuter_innerDoor, roomOf_innerDoor]

section
variable {s : State} {r : Room} {q : Presentation}

theorem decideOuter_unknown (h : s.lookup q.credential = none) :
    s.decideOuter r q = (s.revalidatePair r).denied (outerDoor r) q.credential .unknown := by
  have h : (s.revalidatePair r).lookup q.credential = none := h
  unfold State.decideOuter
  dsimp only
  rw [h]
  rfl

variable {p : PermitIx} {m : Permit} (hl : s.lookup q.credential = some p) (hm : s.permit p = some m)
  (hp : ∀ h, (s.revalidatePair r).pair r = some h → h.permit ≠ p)
include hl hm hp

/-- A known permit that is not the one held at the door is put to checks 2 to 6 (R28). -/
theorem decideOuter_known : s.decideOuter r q = match s.checks2to6 m r with
    | some reason => (s.revalidatePair r).denied (outerDoor r) q.credential reason
    | none => (s.revalidatePair r).decidePin r p m q := by
  have hl : (s.revalidatePair r).lookup q.credential = some p := hl
  have hm : (s.revalidatePair r).permit p = some m := hm
  have other : ¬ ((s.revalidatePair r).pair r).map PendingPair.permit = some p := by
    rintro h
    obtain ⟨k, hk, e⟩ := Option.map_eq_some_iff.mp h
    exact hp k hk e
  unfold State.decideOuter
  dsimp only
  rw [hl, Option.bind_some, hm, Option.map_some]
  dsimp only
  rw [if_neg other]
  rfl

theorem decideOuter_refused {x : Reason} (h : s.checks2to6 m r = some x) :
    s.decideOuter r q = (s.revalidatePair r).denied (outerDoor r) q.credential x := by
  rw [decideOuter_known hl hm hp, h]

/-- An entitled permit whose PIN denies (R15). -/
theorem decideOuter_pinDenied {x : Reason} (h : s.Entitled r m) (hx : m.pinReason (m.pinOutcome q.pin) = some x) :
    s.decideOuter r q = ((s.revalidatePair r).setPermit p (some (m.checkedPin q.pin))).denied (outerDoor r)
      q.credential x := by
  rw [decideOuter_known hl hm hp, (checks2to6_eq_none s m r).mpr h]
  dsimp only
  rw [decidePin_eq, hx]

/-- The state at checks 8 to 15 after a PIN that passed: DURESS is raised where the PIN was the duress PIN (R34). -/
def State.pinPassed (s : State) (r : Room) (p : PermitIx) (m : Permit) (duress : Bool) : State :=
  if duress then (s.setPermit p (some m.pinTaken)).raise (keyDuress r (outerDoor r) none) (some p)
  else s.setPermit p (some m.pinTaken)

/-- An entitled permit whose PIN passed, and which fails one of checks 8 to 15 (R29 to R31, R34). -/
theorem decideOuter_doorDenied {x : Reason} {duress : Bool} (h : s.Entitled r m) (hq : m.PinPasses q.pin duress)
    (hx : (s.revalidatePair r).checks8to15 p m r (((s.revalidatePair r).pair r).map PendingPair.permit) = some x) :
    s.decideOuter r q
      = ((s.revalidatePair r).pinPassed r p m duress).denied (outerDoor r) q.credential x := by
  obtain ⟨hr, hc, hd⟩ := pinPasses_outcome hq
  obtain ⟨kc, ko, _⟩ := pinTaken_keeps m
  rw [decideOuter_known hl hm hp, (checks2to6_eq_none s m r).mpr h]
  dsimp only
  rw [decidePin_eq, hr, hc, hd]
  rw [← checks8to15_setPermit (s := s.revalidatePair r) hm kc ko] at hx
  have hx' : ((s.revalidatePair r).pinPassed r p m duress).checks8to15 p m.pinTaken r
      ((((s.revalidatePair r).pinPassed r p m duress).pair r).map PendingPair.permit) = some x := by
    unfold State.pinPassed
    cases duress <;> exact hx
  unfold State.decideAfterPin
  dsimp only
  unfold State.pinPassed at hx' ⊢
  rw [hx']

end

end Sys2Proof.Machine

/-! PROOFS. The presentations that unbolt no door (R27 to R31, R34, R37, R38, R40, R41): O22. -/

namespace Sys2Proof.Machine

theorem setPermit_same {s : State} {p : PermitIx} {m : Permit} (h : s.permit p = some m) :
    s.setPermit p (some m) = s := by
  have e : s.permits.set p (s.permits.get p) = s.permits := Table.set_get _ _
  unfold State.setPermit
  rw [← h]
  unfold State.permit
  rw [e]

/-- The permits of a state in which one was written. -/
theorem permit_of_written {s t : State} {p : PermitIx} {y : Permit} (h : t.permits = s.permits.set p (some y)) :
    t.permit p = some y ∧ ∀ k, k ≠ p → t.permit k = s.permit k :=
  ⟨(congrArg (Table.get · p) h).trans (Table.get_set_self _ _ _),
    fun k hk => (congrArg (Table.get · k) h).trans (Table.get_set_ne _ _ fun e => hk e.symm)⟩

theorem revalidatePair_only (s : State) (r : Room) : OnlyChanges [.pairs] s (s.revalidatePair r) := by
  intro q hq; cases q <;> first | rfl | exact fun _ => rfl | exact absurd (by decide) hq

/-! ### Denials of an outer entry -/

section
variable {s : State} {l : LoopNo} {st : StationId} {q : Presentation} {r : Room} (h : s.Holds l st q)
  (hr : (s.entry st).role = .door (outerDoor r)) (hf : q.face = .entry)
include h hr hf

/-- An outer entry denied with no more than the pending pair reviewed. -/
theorem outer_denied {x : Reason}
    (hd : s.decideOuter r q = (s.revalidatePair r).denied (outerDoor r) q.credential x) :
    Happens (.presentationDecided l) s [.stations, .notes, .doors, .pairs] fun t =>
      s.Denies t st (outerDoor r) q x ∧ t.pairs = (s.revalidatePair r).pairs :=
  happens_denied h ((decide_outer hr hf).trans hd) rfl ((revalidatePair_only s r).widen rfl) (by simp)
    (.inr ⟨h.noRaise, fun _ => rfl⟩) fun _ hd _ hq _ => ⟨hd, hq⟩

/-- An outer entry denied after the permit was written, its watch_always kept. -/
theorem outer_denied_written {x : Reason} {p : PermitIx} {m y : Permit} (hm : s.permit p = some m)
    (hw : y.watchAlways = m.watchAlways)
    (hd : s.decideOuter r q
      = ((s.revalidatePair r).setPermit p (some y)).denied (outerDoor r) q.credential x) :
    Happens (.presentationDecided l) s [.stations, .notes, .doors, .pairs, .permits] fun t =>
      s.Denies t st (outerDoor r) q x ∧ t.permits = s.permits.set p (some y)
        ∧ t.pairs = (s.revalidatePair r).pairs :=
  happens_denied h ((decide_outer hr hf).trans hd) rfl
    (((revalidatePair_only s r).widen rfl).trans ((setPermit_only _ p _).widen rfl)) (by simp)
    (.inr ⟨h.noRaise, watchAlways_setPermit (s := s.revalidatePair r) hm hw⟩) fun _ hd hp hq _ => ⟨hd, hp, hq⟩

/-- An outer entry denied after a duress PIN, whose raise is taken all the same (R34). -/
theorem outer_denied_duress {x : Reason} {p : PermitIx} {y : Permit}
    (hd : s.decideOuter r q = (((s.revalidatePair r).setPermit p (some y)).raise (keyDuress r (outerDoor r) none)
      (some p)).denied (outerDoor r) q.credential x) :
    Happens (.presentationDecided l) s ([.stations, .notes, .doors, .pairs, .permits] ++ duressParts true) fun t =>
      s.Denies t st (outerDoor r) q x ∧ t.permits = s.permits.set p (some y) ∧ t.pairs = (s.revalidatePair r).pairs
        ∧ s.DuressTaken ⟨.duress, some r, some (outerDoor r), none, none⟩ p t := by
  have handed : (((s.revalidatePair r).setPermit p (some y)).raise (keyDuress r (outerDoor r) none)
      (some p)).handedRaises = [⟨keyDuress r (outerDoor r) none, some p⟩] :=
    congrArg (· ++ [(⟨keyDuress r (outerDoor r) none, some p⟩ : AlarmRaise)]) h.noRaise
  exact happens_denied h ((decide_outer hr hf).trans hd) rfl
    ((((revalidatePair_only s r).widen rfl).trans ((setPermit_only _ p _).widen rfl)).trans ((raise_only _ _ _).widen rfl))
    (by simp) (.inl (by decide)) fun _ hd hp hq hk => ⟨hd, hp, hq, hk _ handed⟩

variable {p : PermitIx} {m : Permit} (hl : s.lookup q.credential = some p) (hm : s.permit p = some m)
  (hp : ∀ k, (s.revalidatePair r).pair r = some k → k.permit ≠ p)
include hl hm hp

/-- An asked PIN that is missing (R15). -/
theorem outer_pinMissing {pin : Nat} (he : s.Entitled r m) (hpin : m.pin = some pin) (hq : q.pin = none) :
    Happens (.presentationDecided l) s [.stations, .notes, .doors, .pairs] fun t =>
      s.Denies t st (outerDoor r) q .pinWrong ∧ t.pairs = (s.revalidatePair r).pairs := by
  have out : m.pinOutcome q.pin = some .missing := by
    rw [Permit.pinOutcome, hpin, hq]
    rfl
  have kept : m.checkedPin q.pin = m := by
    unfold Permit.checkedPin
    rw [out]
    rfl
  have hd := decideOuter_pinDenied hl hm hp he (x := .pinWrong) (by rw [out]; rfl)
  rw [kept, setPermit_same (s := s.revalidatePair r) hm] at hd
  exact outer_denied h hr hf hd

/-- A wrong PIN (R15): counted, and the third in a row locks the permit out. -/
theorem outer_pinWrong {pin : Nat} {v : BitVec 16} (he : s.Entitled r m) (hpin : m.pin = some pin)
    (hq : q.pin = some v) (hv : v.toNat ≠ pin) (hn : ¬ IsDuressPin pin v) :
    Happens (.presentationDecided l) s [.stations, .notes, .doors, .pairs, .permits] fun t =>
      (m.pinFailures ≤ 1 → s.Denies t st (outerDoor r) q .pinWrong
          ∧ t.permit p = some { m with pinFailures := m.pinFailures + 1 })
        ∧ (2 ≤ m.pinFailures → s.Denies t st (outerDoor r) q .pinLocked
          ∧ t.permit p = some { m with pinFailures := 3, state := .suspended })
        ∧ (∀ k, k ≠ p → t.permit k = s.permit k) ∧ t.pairs = (s.revalidatePair r).pairs := by
  have out : m.pinOutcome q.pin = some .wrong := by
    rw [Permit.pinOutcome, hpin, hq, Option.map_some, comparePin_wrong hv hn]
  have checked : m.checkedPin q.pin = m.afterPin .wrong := by
    unfold Permit.checkedPin
    rw [out]
  have denied : ∀ x, m.pinReason (some .wrong) = some x → s.decideOuter r q
      = ((s.revalidatePair r).setPermit p (some (m.afterPin .wrong))).denied (outerDoor r) q.credential x := fun x hx => by
    rw [← checked]
    exact decideOuter_pinDenied hl hm hp he (by rw [out, hx])
  rcases Nat.lt_or_ge 1 m.pinFailures with hc | hc
  · obtain ⟨hy, hx⟩ := wrongPin_locks hc he.active
    obtain ⟨t, ht, ho, hd, hk, hq⟩ := outer_denied_written h hr hf hm (by rw [hy]) (denied _ hx)
    rw [hy] at hk
    obtain ⟨hp, hothers⟩ := permit_of_written hk
    exact ⟨t, ht, ho, fun h1 => absurd hc (Nat.not_lt.mpr h1), fun _ => ⟨hd, hp⟩, hothers, hq⟩
  · obtain ⟨hy, hx⟩ := wrongPin_counted hc
    obtain ⟨t, ht, ho, hd, hk, hq⟩ := outer_denied_written h hr hf hm (by rw [hy]) (denied _ hx)
    rw [hy] at hk
    obtain ⟨hp, hothers⟩ := permit_of_written hk
    exact ⟨t, ht, ho, fun _ => ⟨hd, hp⟩, fun h2 => absurd hc (Nat.not_le.mpr h2), hothers, hq⟩

/-- A PIN that passed, and one of checks 8 to 15 that fails (R29 to R31, R34). -/
theorem outer_doorDenied {duress : Bool} {x : Reason} (he : s.Entitled r m) (hq : m.PinPasses q.pin duress)
    (hx : FirstFailing ((s.revalidatePair r).checksAtDoor r p m
      (if ((s.revalidatePair r).pair r).isSome then 2 else 1) ((s.revalidatePair r).Company r)) x) :
    Happens (.presentationDecided l) s ([.stations, .notes, .doors, .pairs, .permits] ++ duressParts duress) fun t =>
      s.Denies t st (outerDoor r) q x ∧ t.pairs = (s.revalidatePair r).pairs
        ∧ t.permit p = some m.pinTaken ∧ (∀ v, v ≠ p → t.permit v = s.permit v)
        ∧ (duress = true → s.DuressTaken ⟨.duress, some r, some (outerDoor r), none, none⟩ p t) := by
  have hd := decideOuter_doorDenied hl hm hp he hq ((checks8to15_checks _ r p m x).mp hx)
  cases duress with
  | false =>
    obtain ⟨t, ht, ho, hd, hk, hq⟩ := outer_denied_written h hr hf hm (pinTaken_keeps m).2.2 hd
    exact ⟨t, ht, ho, hd, hq, (permit_of_written hk).1, (permit_of_written hk).2, fun k => by cases k⟩
  | true =>
    obtain ⟨t, ht, ho, hd, hk, hq, ha⟩ := outer_denied_duress h hr hf hd
    exact ⟨t, ht, ho, hd, hq, (permit_of_written hk).1, (permit_of_written hk).2, fun _ => ha⟩

end

/-! ### Denials of an inner entry (R38) -/

theorem innerChecks_checks (s : State) (r : Room) (c : Credential) :
    Checks ((s.checksInside r c).drop 2) (s.innerChecks r) :=
  .cons (admits_iff _) (.cons (door_admits_iff _) (.cons (door_free_iff _) (.cons (secured_iff s _) .nil)))

theorem decideInner_denied {s : State} {r : Room} {q : Presentation} {x : Reason}
    (h : FirstFailing (s.checksInside r q.credential) x) :
    s.decideInner r q = s.denied (innerDoor r) q.credential x := by
  unfold State.decideInner
  rcases h with ⟨hn, rfl⟩ | ⟨hl, ⟨hn, rfl⟩ | ⟨hs, h⟩⟩
  · rw [if_pos (by simpa using hn)]
  · rw [if_neg (by simpa [Option.isSome_iff_ne_none] using hl)]
    simp only [Option.not_isSome_iff_eq_none.mp hn]
  · obtain ⟨o, ho⟩ := Option.isSome_iff_exists.mp hs
    rw [if_neg (by simpa [Option.isSome_iff_ne_none] using hl)]
    simp only [ho, (innerChecks_checks s r q.credential x).mp h]

/-! ### Check-ins and musters without a record (R40, R41) -/

theorem notOnRoster_decides {s : State} {st : StationId} {q : Presentation}
    (h : (∃ d, (s.entry st).role = .door d ∧ q.face = .checkIn
        ∧ (isOuter d = true ∨ s.slotIn q.credential (roomOf d) [.inside] = none))
      ∨ ((s.entry st).role = .muster ∧ s.slotOfCredential q.credential = none)) :
    s.Decides st q s (.deny .notOnRoster) [] := by
  refine ⟨?_, .refl _ s, rfl, fun _ => rfl, rfl, rfl⟩
  unfold State.decidePresentation
  rcases h with ⟨d, hr, hf, hd⟩ | ⟨hr, hd⟩
  · rw [hr]
    dsimp only
    rw [hf]
    cases ho : isOuter d with
    | true => rfl
    | false =>
      have hn := hd.resolve_left (by simp [ho])
      dsimp only
      simp only [State.decideCheckIn, hn]
  · rw [hr]
    simp only [State.decideMuster, hd]

/-! ### A muster presentation that retires its record (R41) -/

theorem muster_retires {s : State} {l : LoopNo} {st : StationId} {q : Presentation} {o : Slot} {x : Occupant}
    (h : s.Holds l st q) (hr : (s.entry st).role = .muster) (ho : s.slotOfCredential q.credential = some o)
    (hx : s.occupant o = some x) :
    Happens (.presentationDecided l) s
      [.stations, .notes, .permits, .records, .watches, .lists, .pairs, .doors, .zones, .alarms, .overflow, .lostCount]
      fun t => s.AnswersWith t st .grant q.mark ∧ t.occupant o = none
        ∧ t.list x.room = (s.list x.room).filter (fun u => decide (u ≠ o))
        ∧ (∀ r, r ≠ x.room → t.list r = s.list r) := by
  have result : s.decidePresentation (s.entry st).role q = (s.leaveRoster o, .grant) := by
    rw [hr]
    simp only [State.decidePresentation, State.decideMuster, ho]
  have same := leaveRoster_only s o
  have fin := finish_only s ((s.leaveRoster o).toHandshake st (.answering .grant q.mark))
  have list (r : Room) := (congrArg (Table.get · r) (fin .lists (by decide))).trans (leaveRoster_list hx r)
  refine ⟨_, exec_presentationDecided h result, ?_, answersWith_of_handshake (same .stations (by decide))
    (same .notes (by decide)) (fin .stations (by decide)) (fin .notes (by decide)), ?_, ?_, fun r hne => ?_⟩
  · exact ((same.widen rfl).trans ((toHandshake_only _ st _).widen rfl)).trans (fin.widen rfl)
  · have free : (s.leaveRoster o).occupant o = none := leaveRoster_occupant_self hx
    refine Option.map_eq_none_iff.mp ((fin .records (by decide) o).trans ?_)
    exact (congrArg (Option.map Occupant.unwatched) free)
  · exact (list x.room).trans (if_pos rfl)
  · exact (list r).trans (if_neg fun e => hne e.symm)

/-- Settles O22. -/
theorem presentationsWithoutDoor : Obligations.PresentationsWithoutDoor := by
  refine ⟨fun s u l st q r h hr hf hu => ?_, fun s l st q h => ⟨fun r x hr hf hx => ?_, fun hn => ?_⟩,
    fun s l st q o x h hr ho hx => muster_retires h hr ho hx⟩
  · obtain rfl := revalidated_eq hu
    refine ⟨fun hl => outer_denied h hr hf (decideOuter_unknown hl), fun p m hl hm hp => ⟨fun x hx => ?_,
      fun pin he hpin hq => outer_pinMissing h hr hf hl hm hp he hpin hq,
      fun pin v he hpin hq hv hn => outer_pinWrong h hr hf hl hm hp he hpin hq hv hn,
      fun duress x he hq hx => outer_doorDenied h hr hf hl hm hp he hq hx⟩⟩
    exact outer_denied h hr hf (decideOuter_refused hl hm hp ((checks2to6_checks (s.revalidatePair r) m r x).mp hx))
  · exact happens_denied (v := s) h ((decide_inner hr hf).trans (decideInner_denied hx)) rfl (.refl _ s) (by simp)
      (.inr ⟨h.noRaise, fun _ => rfl⟩) fun _ hd _ _ _ => hd
  · exact (notOnRoster_decides hn).happens h (by simp)
      (.inr ⟨h.noRaise, fun _ x _ => not_watchTriggered_of_watchAlways rfl rfl rfl rfl⟩) fun _ ht => ht.answer

end Sys2Proof.Machine
